-- ==== Sys2Proof/Word.lean ====
section
/-! DEFINITION. The machine's one word type and its 8-bit arithmetic (spec/00_scope.md R7, R8, R10; spec/43_alu.md R115).

Every register, memory cell, operand and address is one unsigned byte. `BitVec` addition, subtraction and
multiplication are the operations modulo 256 of R8. -/

namespace Sys2Proof

/-- An unsigned byte, 0 to 255 (R7): a register, a memory cell, an operand, an address. -/
abbrev Byte := BitVec 8

/-- A second of the minute, 0 to 59 (R34, R35): the baseline `TB` and the input `T`. Values 60 to 63 of the 6-bit
input are never presented by the host (R214, D23), so the type has 60 values. -/
abbrev Second := Fin 60

/-- `add8(a, b) = (a + b) mod 256` (R8). -/
abbrev add8 (a b : Byte) : Byte := a + b

/-- `sub8(a, b) = (a - b) mod 256` (R8). -/
abbrev sub8 (a b : Byte) : Byte := a - b

/-- `mul8(a, b) = (a * b) mod 256` (R8). -/
abbrev mul8 (a b : Byte) : Byte := a * b

end Sys2Proof
end

