-- ==== Sys2Proof/Syntax.lean ====
section
/-! DEFINITION. The instruction set: one constructor for each row of spec/opcode_table.json, in the table's order
(spec/30_encoding.md R77).

An operand is kept as the whole byte the instruction carries (R72: "all 8 bits significant"): a register operand of 8
or more is a decodable instruction, whose execution raises `AddressOutOfRange` with that byte (R75, R97). `a` is the
first operand, `b` the second (R70, R73). -/

namespace Sys2Proof

inductive Instr where
  /-- `LDI` (R100): register `a`, immediate `b`. -/
  | ldi (a b : Byte)
  /-- `PRN` (R105): register `a`. -/
  | prn (a : Byte)
  /-- `PRA` (R106): register `a`. -/
  | pra (a : Byte)
  /-- `HLT` (R140). -/
  | hlt
  /-- `ADD` (R111): registers `a` (also the destination) and `b`. -/
  | add (a b : Byte)
  /-- `MUL` (R112): registers `a` (also the destination) and `b`. -/
  | mul (a b : Byte)
  /-- `CMP` (R113): registers `a` (left) and `b` (right). -/
  | cmp (a b : Byte)
  /-- `PUSH` (R122): register `a`. -/
  | push (a : Byte)
  /-- `POP` (R123): register `a`. -/
  | pop (a : Byte)
  /-- `CALL` (R130): register `a` holds the target. -/
  | call (a : Byte)
  /-- `RET` (R131). -/
  | ret
  /-- `JMP` (R132): register `a` holds the target. -/
  | jmp (a : Byte)
  /-- `JEQ` (R133): register `a` holds the target. -/
  | jeq (a : Byte)
  /-- `JNE` (R134): register `a` holds the target. -/
  | jne (a : Byte)
  /-- `ST` (R101): register `a` holds the address, register `b` the value. -/
  | st (a b : Byte)
  /-- `IRET` (R141). -/
  | iret
  deriving DecidableEq, Repr

end Sys2Proof
end

