-- ==== Sys2Proof/Decode.lean ====
section
/-! DEFINITION. The decoder and the encoder, from the opcode map of spec/30_encoding.md R77 and the formats of R72.

Lookup compares the whole opcode byte with the table's (R78). Decoding is total on any bytes and rejects by name: a
byte outside the table, or a list that ends inside an instruction. -/

namespace Sys2Proof

/-- A row of the dispatch table by its format (R72): no operand, one operand byte, two operand bytes. -/
inductive Entry where
  | f0 (i : Instr)
  | f1 (mk : Byte → Instr)
  | f2 (mk : Byte → Byte → Instr)

/-- Why bytes are no instruction. `unknownOpcode op`: the byte `op` has no row (R79). `truncated`: the list ends before
the instruction does, which cannot happen to a fetch from memory. -/
inductive DecodeError where
  | unknownOpcode (op : Byte)
  | truncated
  deriving DecidableEq, Repr

/-- The dispatch table (R77): "a mapping from opcode byte to instruction handler". -/
def dispatchTable : List (Byte × Entry) :=
  [ (0b10000010#8, .f2 .ldi),
    (0b01000111#8, .f1 .prn),
    (0b01001000#8, .f1 .pra),
    (0b00000001#8, .f0 .hlt),
    (0b10100000#8, .f2 .add),
    (0b10100010#8, .f2 .mul),
    (0b10100111#8, .f2 .cmp),
    (0b01000101#8, .f1 .push),
    (0b01000110#8, .f1 .pop),
    (0b01010000#8, .f1 .call),
    (0b00010001#8, .f0 .ret),
    (0b01010100#8, .f1 .jmp),
    (0b01010101#8, .f1 .jeq),
    (0b01010110#8, .f1 .jne),
    (0b10000100#8, .f2 .st),
    (0b00010011#8, .f0 .iret) ]

/-- The row whose byte equals `op` in the given table (R78: all 8 bits are compared). -/
def lookupIn (op : Byte) : List (Byte × Entry) → Option Entry
  | [] => none
  | (k, e) :: rest => if op = k then some e else lookupIn op rest

/-- The dispatch table lookup (R78, R95). -/
def lookup (op : Byte) : Option Entry := lookupIn op dispatchTable

/-- How many operand bytes the row's format has (R72). -/
def Entry.operandCount : Entry → Nat
  | .f0 _ => 0
  | .f1 _ => 1
  | .f2 _ => 2

/-- The row's instruction, given what is read as its operand byte number `k` (0 for `a`, 1 for `b`). A format reads
exactly the operand bytes it has (R96). -/
def Entry.instr (e : Entry) (operand : Nat → Byte) : Instr :=
  match e with
  | .f0 i => i
  | .f1 mk => mk (operand 0)
  | .f2 mk => mk (operand 0) (operand 1)

/-- The operand count an opcode byte states in its two high bits, `n = opcode[7:6]` (R71). -/
def operandBits (op : Byte) : Nat := (op >>> 6).toNat

/-- The instruction at the head of a list of bytes and the bytes after it, or why there is none (R70, R78, R79). -/
def decode : List Byte → Except DecodeError (Instr × List Byte)
  | [] => .error .truncated
  | op :: rest =>
    match lookup op with
    | none => .error (.unknownOpcode op)
    | some e =>
      if rest.length < e.operandCount then .error .truncated
      else .ok (e.instr (fun k => rest.getD k 0#8), rest.drop e.operandCount)

/-- The bytes of an instruction, opcode first (R72, R77). -/
def encode : Instr → List Byte
  | .ldi a b => [0x82#8, a, b]
  | .prn a => [0x47#8, a]
  | .pra a => [0x48#8, a]
  | .hlt => [0x01#8]
  | .add a b => [0xA0#8, a, b]
  | .mul a b => [0xA2#8, a, b]
  | .cmp a b => [0xA7#8, a, b]
  | .push a => [0x45#8, a]
  | .pop a => [0x46#8, a]
  | .call a => [0x50#8, a]
  | .ret => [0x11#8]
  | .jmp a => [0x54#8, a]
  | .jeq a => [0x55#8, a]
  | .jne a => [0x56#8, a]
  | .st a b => [0x84#8, a, b]
  | .iret => [0x13#8]

/-- Byte number `k` of an instruction whose bits are `w`, numbered from the least significant bit of the first byte,
with every bit from `nbits` up read as 0. -/
def tableByte (nbits w k : Nat) : Byte := BitVec.ofNat 8 ((w % 2 ^ nbits) / 2 ^ (8 * k))

/-- The three bytes (the longest instruction, R70) of an instruction whose bits are `w`, lowest address first. -/
def tableBytes (nbits w : Nat) : List Byte := [tableByte nbits w 0, tableByte nbits w 1, tableByte nbits w 2]

/-- The instruction the decoder reads from an instruction whose bits are `w`, numbered as spec/opcode_table.json
numbers them. -/
def decodeTableWord (nbits w : Nat) : Option Instr :=
  match decode (tableBytes nbits w) with
  | .ok (i, _) => some i
  | .error _ => none

end Sys2Proof
end

