-- ==== Sys2Proof/Config.lean ====
section
/-! DEFINITION. What is fixed for one machine, and the one free input (spec/00_scope.md R6).

`Params` holds the two hardware parameters the spec leaves open; a state carries them, so that a statement about every
state speaks about every machine (notes/assumptions/3.md). `Config.secondsInput` is the free input `T`. -/

namespace Sys2Proof

/-- The open hardware parameters of R6: the address of the interrupt vector cell (R58) and the bit of the
interrupt-status register the timer sets (R159). -/
structure Params where
  /-- `IVEC`: the fixed address of the cell that holds the handler's address (R58). -/
  ivec     : Byte
  /-- `TIMER_BIT`: the bit of `x[6]` the timer sets (R159). -/
  timerBit : Fin 8
  deriving DecidableEq, Repr

/-- The defaults of R6: `IVEC = 0xF8`, `TIMER_BIT = 0`. PRESUMED (the family's, as the spec marks them; D5, D6):
unsafe where a claim reads the number (notes/assumptions/3.md). -/
def Params.default : Params := { ivec := 0xF8#8, timerBit := 0 }

/-- `PC_INIT` (R6, R40). -/
def Config.pcInit : Byte := 0x00#8

/-- `SP_INIT` (R6, R41). -/
def Config.spInit : Byte := 0xF4#8

/-- What a memory cell holds after reset, before the load (R190). -/
def Config.cellInit : Byte := 0x00#8

/-- The values the host presents on the input `T` once its script is used up, one for each draw: any value 0 to 59,
with no relation between two of them (R35, U11). A free value: it has no body, so nothing can be proved of one of its
values (notes/assumptions/2.md). DESIGN CHOICE, safe. -/
opaque Config.secondsInput : Nat → Second

end Sys2Proof
end

