-- ==== Sys2Proof/Machine/State.lean ====
section
/-! DEFINITION. The machine's state (spec/10_state.md R20 to R45, the summary table there), its value after reset
(spec/70_reset_and_hazards.md R190), and the reasons a step can stop. -/

namespace Sys2Proof.Machine

/-- The index of one of the eight general registers (R20). -/
abbrev RegIndex := Fin 8

/-- The stop cause (R33), in the order of its codes 0 to 4. -/
inductive Cause where
  /-- Code 0: no stop since the run started. -/
  | none
  /-- Code 1: "halted_normally". -/
  | hlt
  /-- Code 2: "halted_on_unknown_opcode". -/
  | unknownOpcode
  /-- Code 3: a register operand of 8 or more. -/
  | addressOutOfRange
  /-- Code 4: the ALU was given no operation of its own; unreachable from any program (R114). -/
  | unsupportedOperation
  deriving DecidableEq, Repr

/-- The kind of an output event (R107). -/
inductive OutKind where
  /-- `NUM`: printed as an unsigned decimal number (R105). -/
  | num
  /-- `CHR`: printed as a character (R106). -/
  | chr
  deriving DecidableEq, Repr

/-- One event on the output port `OUT`: a pair `(kind, value)` (R107). -/
structure OutEvent where
  kind  : OutKind
  value : Byte
  deriving DecidableEq, Repr

/-- What the host does to the block's ports (R190 to R192, R214, D1), one entry a step. -/
inductive HostInput where
  /-- The host lets the engine take one cycle and presents `t` on the input `T` (R35). -/
  | cycle (t : Second)
  /-- The reset input `rst` (R190). -/
  | reset
  /-- The loader port writes the byte `v` at the address `a` (R191). -/
  | load (a v : Byte)
  /-- The `run` request, with `t` on the input `T` (R192). -/
  | run (t : Second)
  deriving DecidableEq, Repr

/-- Memory `M` (R50) as its cells that differ from what an unlisted cell reads as (`Config.cellInit`): addresses
strictly rising (`Memory.wf`). -/
abbrev Memory := List Host.Cell

/-- The whole state. No instruction and no input changes `params`. -/
@[ext]
structure State where
  /-- `x[0]` to `x[7]` (R20): 5 is the interrupt mask, 6 the interrupt status, 7 the stack pointer (R23 to R25). -/
  regs    : Vector Byte 8
  /-- `FL`: `E`, `G`, `L` in bits 0, 1, 2 (R28). -/
  fl      : Byte
  /-- `PC`: the address of the next opcode to fetch (R29). -/
  pc      : Byte
  /-- `RUN`: RUNNING or not (R32). -/
  run     : Bool
  /-- `CAUSE`: why the run stopped (R33). -/
  cause   : Cause
  /-- `ERRB`: the byte reported with the cause (R33). -/
  errb    : Byte
  /-- `TB`: the timer baseline (R34). -/
  tb      : Second
  /-- `M` (R36, R50). -/
  mem     : Memory
  /-- `OUT`: the events of the run so far, oldest first (R107; notes/assumptions/1.md). -/
  out     : List OutEvent
  /-- `IVEC` and `TIMER_BIT`, the parameters of this machine (R6, R38 (c); notes/assumptions/3.md). -/
  params  : Params
  /-- The sample of the input `T` that the current cycle works with (R9, R35; notes/assumptions/7.md). -/
  seconds : Second
  /-- What the host will do, oldest first (D1; notes/assumptions/2.md, 4.md). -/
  inputs  : List HostInput
  /-- How many values of `T` were drawn from `Config.secondsInput` (notes/assumptions/2.md). -/
  draws   : Nat
  deriving DecidableEq, Repr

/-- Why the machine stops outside the spec's own HALTED state. The spec's faults are no such stop: they are the
transition to HALTED, a next state (R155). -/
inductive Fault where
  /-- Raised by `hostLoad`: the host used the loader port after the `run` request and before the next reset. The host
  may not (R191, R214, D29), and the spec gives the write no effect there. Safe (notes/assumptions/5.md). -/
  | loaderNotIdle
  deriving DecidableEq, Repr

/-- Why an instruction has no meaning in the model. -/
inductive Refusal where
  /-- Raised by `exec` for an instruction that is not modelled yet, by its mnemonic; no arm raises it. Safe. -/
  | notModelled (mnemonic : String)
  deriving DecidableEq, Repr

/-- The answer of one step of this machine. -/
abbrev Answer := Host.Outcome State Fault Refusal

/-- The state right after the reset input (R190): `RUN = 0`, registers and flags 0x00 but for `x[7] = 0xF4`, every
memory cell 0x00. `seconds`, `inputs` and `draws` are the model's own fields (notes/assumptions/7.md). -/
def State.reset : State where
  regs    := #v[0x00#8, 0x00#8, 0x00#8, 0x00#8, 0x00#8, 0x00#8, 0x00#8, Config.spInit]
  fl      := 0x00#8
  pc      := Config.pcInit
  run     := false
  cause   := .none
  errb    := 0x00#8
  tb      := 0
  mem     := []
  out     := []
  params  := Params.default
  seconds := 0
  inputs  := []
  draws   := 0

end Sys2Proof.Machine
end

