-- ==== Sys2Proof/Machine/Ops.lean ====
section
/-! DEFINITION. The named operations over memory and registers; the stack primitives; stopping on a fault; taking the
timer interrupt and returning from it (spec/00_scope.md R9 to R12; spec/20_memory.md; spec/44_stack.md R120, R121;
spec/60_exceptions.md R155, R164; spec/46_system.md R141). -/

namespace Sys2Proof.Machine

/-! Memory. -/

/-- `MemRead(addr, 1)` (R51): the byte listed for the address, or what an unlisted cell holds. -/
def Memory.read : Memory → Nat → Byte
  | [], _ => Config.cellInit
  | (k, v) :: rest, a => if k = a then v else Memory.read rest a

/-- Memory without any entry for the address. -/
def Memory.erase : Memory → Nat → Memory
  | [], _ => []
  | (k, v) :: rest, a => if k = a then Memory.erase rest a else (k, v) :: Memory.erase rest a

/-- Memory with one entry put before the first entry of a higher address. -/
def Memory.insert : Memory → Nat → Byte → Memory
  | [], a, v => [(a, v)]
  | (k, w) :: rest, a, v => if a < k then (a, v) :: (k, w) :: rest else (k, w) :: Memory.insert rest a v

/-- `MemWrite(addr, 1, v)` (R51): cell `addr` becomes `v` and no other cell changes. A cell that becomes what an
unlisted cell holds is not listed. -/
def Memory.write (m : Memory) (a : Nat) (v : Byte) : Memory :=
  if v = Config.cellInit then m.erase a else (m.erase a).insert a v

/-- Every entry's address is at least `lo`, the addresses rise strictly and stay below 256 (R50), and no entry equals
what an unlisted cell holds. -/
def Memory.wfFrom (lo : Nat) : Memory → Bool
  | [] => true
  | (k, v) :: rest => decide (lo ≤ k) && decide (k < 256) && decide (v ≠ Config.cellInit) && Memory.wfFrom (k + 1) rest

/-- The canonical form of memory: equal memories are equal lists. -/
def Memory.wf (m : Memory) : Bool := Memory.wfFrom 0 m

/-! Registers and the other state, each through one operation. -/

/-- `x[i]` (R9). -/
def State.x (s : State) (i : RegIndex) : Byte := s.regs[i.val]

/-- `x[i] <- v` (R9). -/
def State.setX (s : State) (i : RegIndex) (v : Byte) : State := { s with regs := s.regs.set i.val v }

/-- `FL <- v`: all 8 bits (R28). -/
def State.setFl (s : State) (v : Byte) : State := { s with fl := v }

/-- `PC <- v` (R9). -/
def State.setPc (s : State) (v : Byte) : State := { s with pc := v }

/-- `TB <- t` (R34). -/
def State.setTb (s : State) (t : Second) : State := { s with tb := t }

/-- The input `T` is sampled: `t` is what every rule of this cycle means by `T` (R35). -/
def State.setSeconds (s : State) (t : Second) : State := { s with seconds := t }

/-- The byte in memory cell `a` (R10, R51). -/
def State.read (s : State) (a : Byte) : Byte := s.mem.read a.toNat

/-- Byte `v` goes to memory cell `a` (R10, R51). -/
def State.store (s : State) (a v : Byte) : State := { s with mem := s.mem.write a.toNat v }

/-- `Emit(kind, v)` (R11, R107): the event is appended to the output port. -/
def State.emit (s : State) (k : OutKind) (v : Byte) : State := { s with out := s.out ++ [⟨k, v⟩] }

/-- The fixed increment of `PC` by the instruction's length `n`, modulo 256 (R30, R31). -/
def State.advance (s : State) (n : Byte) : State := s.setPc (add8 s.pc n)

/-- The transition to HALTED: `RUN <- 0` and the stop cause with its byte (R32, R33). -/
def State.stop (s : State) (c : Cause) (b : Byte) : State := { s with run := false, cause := c, errb := b }

/-- `raise Name(info)` (R12, R155): the run stops with the cause and the byte, and nothing else changes: not `PC`, no
register, no flag, no memory cell, no output event. -/
def State.raise (s : State) (c : Cause) (info : Byte) : State := s.stop c info

/-! The stack (R120, R121). -/

/-- `Push(v)` (R120): `SP` is decremented, then the byte is written at it. -/
def State.push (s : State) (v : Byte) : State :=
  let s := s.setX 7 (sub8 (s.x 7) 1#8)
  s.store (s.x 7) v

/-- The byte `Pop()` returns (R121): the one at `SP`. -/
def State.top (s : State) : Byte := s.read (s.x 7)

/-- What `Pop()` leaves (R121): `SP` is incremented and the cell keeps its byte. -/
def State.drop (s : State) : State := s.setX 7 (add8 (s.x 7) 1#8)

/-- `x[i] <- Pop()` for a register other than `SP` (R141). -/
def State.popX (s : State) (i : RegIndex) : State := s.drop.setX i s.top

/-- `FL <- Pop()`: all 8 bits, unmasked (R141). -/
def State.popFl (s : State) : State := s.drop.setFl s.top

/-- `PC <- Pop()` (R131, R141). -/
def State.popPc (s : State) : State := s.drop.setPc s.top

/-! The timer interrupt: entry and return. -/

/-- Pushes general register `i` (R164 step 2). -/
def State.pushX (s : State) (i : RegIndex) : State := s.push (s.x i)

/-- `InterruptEntry()` (R164): all pending bits are cleared; `PC`, `FL` and `x[0]` to `x[6]` are pushed, nine bytes;
then `PC` is read from the vector cell as the pushes left it (R64). -/
def State.interruptEntry (s : State) : State :=
  let s := s.setX 6 0x00#8
  let s := s.push s.pc
  let s := s.push s.fl
  let s := s.pushX 0
  let s := s.pushX 1
  let s := s.pushX 2
  let s := s.pushX 3
  let s := s.pushX 4
  let s := s.pushX 5
  let s := s.pushX 6
  s.setPc (s.read s.params.ivec)

/-- What `IRET` does (R141): nine pops in the reverse order of entry's pushes, and the timer baseline becomes the
seconds sampled in this cycle. -/
def State.interruptReturn (s : State) : State :=
  let s := s.popX 6
  let s := s.popX 5
  let s := s.popX 4
  let s := s.popX 3
  let s := s.popX 2
  let s := s.popX 1
  let s := s.popX 0
  let s := s.popFl
  let s := s.popPc
  s.setTb s.seconds

/-! The timer and the interrupt check. -/

/-- `AdvancedByOne(tb, t)` (R160): `t = (tb + 1) mod 60`. -/
def advancedByOne (tb t : Second) : Bool := t.val == (tb.val + 1) % 60

/-- The byte with only bit `i` set, `1 << i`. -/
def bitMask (i : Fin 8) : Byte := 1#8 <<< i.val

/-- Phase 1 (R91, R159): `T` is sampled, and on a tick the timer's bit of `x[6]` is set; no other bit and not `TB`
changes. -/
def State.timerPhase (s : State) (t : Second) : State :=
  let s := s.setSeconds t
  if advancedByOne s.tb t then s.setX 6 (s.x 6 ||| bitMask s.params.timerBit) else s

/-- Phase 2's condition (R163): `(x[6] & x[5]) != 0`. -/
def State.interruptPending (s : State) : Bool := (s.x 6 &&& s.x 5) != 0x00#8

/-! The host's script and what it does at the block's ports. -/

/-- The host's script becomes `rest`: an entry has been taken. -/
def State.setInputs (s : State) (rest : List HostInput) : State := { s with inputs := rest }

/-- One more value of `T` has been drawn from `Config.secondsInput`. -/
def State.drawn (s : State) : State := { s with draws := s.draws + 1 }

/-- The reset input (R190): every piece of the machine's state takes its reset value, whatever it was. The parameters
are the machine's (R38 (c)), and the host's script and the draw counter are the outside world's: they stay. -/
def State.hostReset (s : State) : State :=
  { State.reset with params := s.params, inputs := s.inputs, draws := s.draws }

/-- Before the `run` request, after reset: not running, and no run has stopped (R32, R33). -/
def State.idle (s : State) : Bool := !s.run && (s.cause == .none)

/-- The loader port writes one byte of the image (R191). Outside the interval between reset and `run` the host may
not use it (D29), and the step stops by name (notes/assumptions/5.md). -/
def State.hostLoad (s : State) (a v : Byte) : Answer :=
  if s.idle then .next (s.store a v) else .fault .loaderNotIdle

/-- What the `run` request does when it is taken (R192): `RUN <- 1`, `CAUSE <- NONE`, `ERRB <- 0x00`, `TB <- T`. -/
def State.startRun (s : State) (t : Second) : State :=
  { s with run := true, cause := .none, errb := 0x00#8, tb := t, seconds := t }

/-- The `run` request (R192): it has no effect while `RUN = 1` and none in HALTED. -/
def State.hostRun (s : State) (t : Second) : State := if s.idle then s.startRun t else s

end Sys2Proof.Machine
end

