-- ==== Sys2Proof/Machine/Flags.lean ====
section
/-! DEFINITION. The flags: what a compare writes, and the one flag a jump reads (spec/10_state.md R28;
spec/43_alu.md R113; spec/45_control_transfer.md R136). -/

namespace Sys2Proof.Machine

/-- What COMPARE writes into `FL` (R113): `E`, `G` or `L` alone, by comparing the bytes as unsigned integers. -/
def compareFlags (u v : Byte) : Byte :=
  if u.toNat = v.toNat then 0x01#8
  else if u.toNat > v.toNat then 0x02#8
  else 0x04#8

/-- `E`, bit 0 of `FL` (R28): the only bit a jump tests (R133, R134). -/
def State.flagE (s : State) : Bool := s.fl.getLsbD 0

/-- `G`, bit 1 of `FL` (R28). -/
def State.flagG (s : State) : Bool := s.fl.getLsbD 1

/-- `L`, bit 2 of `FL` (R28). -/
def State.flagL (s : State) : Bool := s.fl.getLsbD 2

end Sys2Proof.Machine
end

