-- ==== Sys2Proof/Machine/Operands.lean ====
section
/-! DEFINITION. The operand forms: a register index, checked whole before anything is written (spec/30_encoding.md R75;
spec/40_execution_cycle.md R97), and an immediate, which is the byte itself (R76). -/

namespace Sys2Proof.Machine

/-- `RegIdx(v)` (R75): the index when the byte is below 8, no index otherwise. -/
def regIdx (v : Byte) : Option RegIndex := if h : v.toNat < 8 then some ⟨v.toNat, h⟩ else none

/-- Runs an instruction of one register operand: `AddressOutOfRange(a)` when `a` is no index (R97, R152). -/
def withReg (a : Byte) (s : State) (body : RegIndex → State) : Answer :=
  match regIdx a with
  | none => .next (s.raise .addressOutOfRange a)
  | some i => .next (body i)

/-- Runs an instruction of two register operands, `a` checked before `b` (R97, D22). -/
def withRegs (a b : Byte) (s : State) (body : RegIndex → RegIndex → State) : Answer :=
  match regIdx a with
  | none => .next (s.raise .addressOutOfRange a)
  | some i =>
    match regIdx b with
    | none => .next (s.raise .addressOutOfRange b)
    | some j => .next (body i j)

end Sys2Proof.Machine
end

