-- ==== Sys2Proof/Machine/Alu.lean ====
section
/-! DEFINITION. The ALU and its instructions: ADD, MUL, CMP (spec/43_alu.md). -/

namespace Sys2Proof.Machine

/-- The ALU's operation select (R110, R114): three operations, and any value that is none of them. -/
inductive AluSelect where
  | add
  | multiply
  | compare
  /-- A select value that names no operation. No row of the dispatch table presents it (R114). -/
  | other
  deriving DecidableEq, Repr

/-- What the ALU gives for two register values: a byte for the destination register, a byte for `FL`, or nothing for a
select value that names no operation. -/
inductive AluResult where
  | value (v : Byte)
  | flags (v : Byte)
  | unsupported
  deriving DecidableEq, Repr

/-- The ALU: a pure function over two register values (R110, R115). -/
def alu (op : AluSelect) (u v : Byte) : AluResult :=
  match op with
  | .add => .value (add8 u v)
  | .multiply => .value (mul8 u v)
  | .compare => .flags (compareFlags u v)
  | .other => .unsupported

/-- What an instruction does with the ALU's result (R111 to R113): the value goes to the first operand's register, or
the flags to `FL`, and `PC` passes the instruction; no result raises `UnsupportedOperation` (R153). -/
def aluFinish (i : RegIndex) (r : AluResult) (s : State) : State :=
  match r with
  | .value v => (s.setX i v).advance 3#8
  | .flags v => (s.setFl v).advance 3#8
  | .unsupported => s.raise .unsupportedOperation 0x00#8

/-- An ALU instruction with the select value the dispatch table gives it (R110). -/
def aluInstr (op : AluSelect) (a b : Byte) (s : State) : Answer :=
  withRegs a b s fun i j => aluFinish i (alu op (s.x i) (s.x j)) s

/-- `ADD a, b` (R111). -/
def execAdd (a b : Byte) (s : State) : Answer := aluInstr .add a b s

/-- `MUL a, b` (R112). -/
def execMul (a b : Byte) (s : State) : Answer := aluInstr .multiply a b s

/-- `CMP a, b` (R113). -/
def execCmp (a b : Byte) (s : State) : Answer := aluInstr .compare a b s

end Sys2Proof.Machine
end

