-- ==== Sys2Proof/Machine/Control.lean ====
section
/-! DEFINITION. Control transfer: CALL, RET, JMP, JEQ, JNE (spec/45_control_transfer.md). -/

namespace Sys2Proof.Machine

/-- `CALL a` (R130): the return address is pushed, then the target is read from the register, so `CALL R7` jumps to
the decremented stack pointer (D13). -/
def execCall (a : Byte) (s : State) : Answer :=
  withReg a s fun i =>
    let t := s.push (add8 s.pc 2#8)
    t.setPc (t.x i)

/-- `RET` (R131). -/
def execRet (s : State) : Answer := .next s.popPc

/-- `JMP a` (R132). -/
def execJmp (a : Byte) (s : State) : Answer :=
  withReg a s fun i => s.setPc (s.x i)

/-- A conditional jump to the register's address, else the fixed increment by 2 (R133, R134). -/
def jumpIf (taken : Bool) (i : RegIndex) (s : State) : State :=
  if taken then s.setPc (s.x i) else s.advance 2#8

/-- `JEQ a` (R133): jumps when `E` is set. -/
def execJeq (a : Byte) (s : State) : Answer :=
  withReg a s fun i => jumpIf s.flagE i s

/-- `JNE a` (R134): jumps when `E` is clear. -/
def execJne (a : Byte) (s : State) : Answer :=
  withReg a s fun i => jumpIf (!s.flagE) i s

end Sys2Proof.Machine
end

