-- ==== Sys2Proof/Machine/DataMovement.lean ====
section
/-! DEFINITION. Data movement: LDI and ST (spec/41_data_movement.md). -/

namespace Sys2Proof.Machine

/-- `LDI a, b` (R100). `b` is an immediate and is not checked. -/
def execLdi (a b : Byte) (s : State) : Answer :=
  withReg a s fun i => (s.setX i b).advance 3#8

/-- `ST a, b` (R101): the byte of `x[b]` goes to the cell whose address is in `x[a]`. -/
def execSt (a b : Byte) (s : State) : Answer :=
  withRegs a b s fun i j => (s.store (s.x i) (s.x j)).advance 3#8

end Sys2Proof.Machine
end

