-- ==== Sys2Proof/Machine/Output.lean ====
section
/-! DEFINITION. Output: PRN and PRA (spec/42_output.md). -/

namespace Sys2Proof.Machine

/-- `PRN a` (R105): one `NUM` event with the register's byte. -/
def execPrn (a : Byte) (s : State) : Answer :=
  withReg a s fun i => (s.emit .num (s.x i)).advance 2#8

/-- `PRA a` (R106): one `CHR` event with the register's whole byte, codes 0x80 and above included (D27). -/
def execPra (a : Byte) (s : State) : Answer :=
  withReg a s fun i => (s.emit .chr (s.x i)).advance 2#8

end Sys2Proof.Machine
end

