-- ==== Sys2Proof/Machine/Stack.lean ====
section
/-! DEFINITION. Stack instructions: PUSH and POP (spec/44_stack.md). -/

namespace Sys2Proof.Machine

/-- `PUSH a` (R122): the register is read after the decrement, so `PUSH R7` stores the decremented pointer (D13). -/
def execPush (a : Byte) (s : State) : Answer :=
  withReg a s fun i =>
    let t := s.setX 7 (sub8 (s.x 7) 1#8)
    (t.store (t.x 7) (t.x i)).advance 2#8

/-- `POP a` (R123): the register is loaded first and `x[7]` is incremented as it is after that, so `POP R7` leaves the
popped byte plus one (D13). -/
def execPop (a : Byte) (s : State) : Answer :=
  withReg a s fun i =>
    let t := s.setX i (s.read (s.x 7))
    (t.setX 7 (add8 (t.x 7) 1#8)).advance 2#8

end Sys2Proof.Machine
end

