-- ==== Sys2Proof/Machine/System.lean ====
section
/-! DEFINITION. System instructions: HLT and IRET (spec/46_system.md). -/

namespace Sys2Proof.Machine

/-- `HLT` (R140): the normal end of a run, with `PC` past the instruction (D25). -/
def execHlt (s : State) : Answer := .next ((s.stop .hlt 0x00#8).advance 1#8)

/-- `IRET` (R141). -/
def execIret (s : State) : Answer := .next s.interruptReturn

end Sys2Proof.Machine
end

