-- ==== Sys2Proof/Machine/Cycle.lean ====
section
/-! DEFINITION. The execution cycle (spec/40_execution_cycle.md R91) and what one entry of the host's script does to
the machine (spec/70_reset_and_hazards.md R190 to R192). -/

namespace Sys2Proof.Machine

/-- Operand byte number `k` (0 for `a`, 1 for `b`) of the instruction at `PC`, at `add8(PC, k + 1)` (R70, R96). -/
def State.operandAt (s : State) (k : Nat) : Byte := s.read (add8 s.pc (BitVec.ofNat 8 (k + 1)))

/-- Phases 3 to 5 (R94 to R96): the opcode at `PC`, its row, and exactly the row's operand bytes; none when the byte
has no row. -/
def State.fetch (s : State) : Option Instr :=
  match lookup (s.read s.pc) with
  | none => none
  | some e => some (e.instr s.operandAt)

/-- One cycle with `T = t`, performed when `RUN = 1` (R91). A pending, unmasked interrupt pre-empts the fetch (R93);
an opcode byte with no row raises `UnknownOpcode` (R95, R151). -/
def State.cycle (s : State) (t : Second) : Answer :=
  let s := s.timerPhase t
  if s.interruptPending then .next s.interruptEntry
  else
    match s.fetch with
    | none => .next (s.raise .unknownOpcode (s.read s.pc))
    | some i => exec i s

/-- What one entry of the host's script does (R190 to R192). A cycle the host allows while `RUN = 0` does nothing
(R32, R90). -/
def State.hostAct (s : State) (h : HostInput) : Answer :=
  match h with
  | .cycle t => if s.run then s.cycle t else .next s
  | .reset => .next s.hostReset
  | .load a v => s.hostLoad a v
  | .run t => .next (s.hostRun t)

/-- One step: the next entry of the host's script; when the script is used up, a cycle with a free value of `T` while
running, and nothing otherwise. -/
def State.nextStep (s : State) : Answer :=
  match s.inputs with
  | h :: rest => (s.setInputs rest).hostAct h
  | [] =>
    if s.run then s.drawn.cycle (Config.secondsInput s.draws) else .next s

/-- The bytes of an instruction, stored from `PC` up (R54, R70). -/
def State.storeAtPc (s : State) (bytes : List Byte) : State :=
  (bytes.zipIdx).foldl (fun t p => t.store (add8 s.pc (BitVec.ofNat 8 p.2)) p.1) s

/-- The state in which the very next step fetches and runs the instruction whose bits are `w`: its bytes stand at
`PC`, the run has been requested with the baseline it has (R192), no unmasked interrupt is pending, and the host lets
one cycle pass with `T = TB`, which is no tick (notes/assumptions/6.md). -/
def State.placeWord (s : State) (nbits w : Nat) : State :=
  let t := (s.storeAtPc (tableBytes nbits w)).startRun s.tb
  let t := t.setX 6 (t.x 6 &&& ~~~(t.x 5))
  t.setInputs (.cycle s.tb :: s.inputs)

end Sys2Proof.Machine
end

