-- ==== Sys2Proof/Machine/Step.lean ====
section
/-! DEFINITION. The step, and the host's way to place one instruction; both only call Machine/Cycle.lean. -/

namespace Sys2Proof.Machine

/-- One step of the machine: the next entry of the host's script (R90, R91, R190 to R192). -/
def step (s : State) : Host.Outcome State Fault Refusal := s.nextStep

/-- `s` with one instruction placed where the next step fetches it, and the run started. -/
def State.withFetchWord (s : State) (nbits w : Nat) : State := s.placeWord nbits w

end Sys2Proof.Machine
end

