-- ==== Sys2Proof/WellFormed.lean ====
section
/-! DEFINITION. Which instructions are well-formed: every register operand names one of the eight registers
(spec/30_encoding.md R75, R82).

An instruction that is not well-formed still decodes and still has a meaning: it raises `AddressOutOfRange` (R97). -/

namespace Sys2Proof

/-- The operand bytes an instruction uses as register indices, in the order in which they are checked (R74, R97):
both operands of an `F2` instruction but for `LDI`, whose second is an immediate. -/
def Instr.regOperands : Instr → List Byte
  | .ldi a _ => [a]
  | .prn a => [a]
  | .pra a => [a]
  | .hlt => []
  | .add a b => [a, b]
  | .mul a b => [a, b]
  | .cmp a b => [a, b]
  | .push a => [a]
  | .pop a => [a]
  | .call a => [a]
  | .ret => []
  | .jmp a => [a]
  | .jeq a => [a]
  | .jne a => [a]
  | .st a b => [a, b]
  | .iret => []

/-- A byte that is a register index: below 8 (R75). -/
def isRegIndex (v : Byte) : Bool := v.toNat < 8

/-- Every register operand is a register index (R75). -/
def Instr.wellFormed (i : Instr) : Bool := i.regOperands.all isRegIndex

end Sys2Proof
end

