-- ==== Sys2Proof/Safety.lean ====
section
/-! DEFINITION. The terms in which claims about runs are made: how a run ended (spec/40_execution_cycle.md R99), the
invariant of the machine's states, the one cell an instruction stores to (spec/20_memory.md R53), the start of a
cycle, and agreement of two states but for time. -/

namespace Sys2Proof.Machine

/-- HALTED: a run has ended (R32, R90), for whatever cause. -/
abbrev State.halted (s : State) : Prop := s.run = false ∧ s.cause ≠ .none

/-- "halted normally exactly when `CAUSE = HLT`" (R99): every other end is a failed run. -/
abbrev State.haltedNormally (s : State) : Prop := s.run = false ∧ s.cause = .hlt

/-- The first register operand that is no register index (R97, R152, D22), if there is one. -/
def firstBadOperand (i : Instr) : Option Byte := i.regOperands.find? fun v => !isRegIndex v

/-- The cell an instruction stores to in a state, if it stores (R53): `ST` at the address in its first register, `PUSH`
and `CALL` at the decremented stack pointer, nothing else and nothing with an operand that is no register index. -/
def storeAddress (i : Instr) (s : State) : Option Byte :=
  match i with
  | .st a b => (regIdx a).bind fun j => (regIdx b).map fun _ => s.x j
  | .push a => (regIdx a).map fun _ => sub8 (s.x 7) 1#8
  | .call a => (regIdx a).map fun _ => sub8 (s.x 7) 1#8
  | .ldi _ _ => none
  | .prn _ => none
  | .pra _ => none
  | .hlt => none
  | .add _ _ => none
  | .mul _ _ => none
  | .cmp _ _ => none
  | .pop _ => none
  | .ret => none
  | .jmp _ => none
  | .jeq _ => none
  | .jne _ => none
  | .iret => none

/-- What holds of every state the machine can be in. -/
structure State.Inv (s : State) : Prop where
  /-- Memory has its canonical form: 256 cells (R50). -/
  memory : Memory.wf s.mem = true
  /-- A running engine has recorded no stop (R33, R192). -/
  running : s.run = true → s.cause = .none
  /-- `ERRB` is 0x00 unless a fault recorded a byte (R33). -/
  noByte : s.cause = .none ∨ s.cause = .hlt → s.errb = 0x00#8
  /-- `UnsupportedOperation` is never raised (R114). -/
  supported : s.cause ≠ .unsupportedOperation
  /-- A run stopped by an unknown opcode is left with `PC` at that byte (R151, R157). -/
  unknown : s.cause = .unknownOpcode → s.errb = s.read s.pc ∧ lookup s.errb = none
  /-- A run stopped by a bad register index is left with `PC` at that instruction, and `ERRB` is one of its register
  operands, 8 or more (R152, R157). -/
  badIndex : s.cause = .addressOutOfRange →
    ∃ i, s.fetch = some i ∧ s.errb ∈ i.regOperands ∧ isRegIndex s.errb = false

/-- The next step of `s` is a cycle, and `u` is the state after its phase 1 (R90 to R92): `s` is running, and `T` is the
script's next value or, when the script is used up, a free one (notes/assumptions/2.md, 4.md). -/
abbrev State.BeginsCycle (s u : State) : Prop :=
  s.run = true ∧
    ((∃ t rest, s.inputs = .cycle t :: rest ∧ u = (s.setInputs rest).timerPhase t) ∨
      (s.inputs = [] ∧ u = s.drawn.timerPhase (Config.secondsInput s.draws)))

/-- Two states agree but for time: all but `x[6]`, `TB` and the sample of `T` (R159). -/
structure State.SameButTime (s t : State) : Prop where
  regs   : ∀ r, r ≠ 6 → s.x r = t.x r
  fl     : s.fl = t.fl
  pc     : s.pc = t.pc
  run    : s.run = t.run
  cause  : s.cause = t.cause
  errb   : s.errb = t.errb
  mem    : s.mem = t.mem
  out    : s.out = t.out
  params : s.params = t.params
  draws  : s.draws = t.draws

end Sys2Proof.Machine
end

