-- ==== Sys2Proof/Certificates/Slice0/Obligations.lean ====
section
/-! DEFINITION. The statements about this machine, each with the rule of spec/ it formalises. `D<n>` is the spec's own
decision in spec/92_eei_decisions.md; a clause that rests on one is the spec's choice where its source is silent, and
the docstring names it. -/

open Sys2Proof Sys2Proof.Machine

/-! Encoding (spec/30_encoding.md). -/

/-- R77, R72, R73: sixteen words written out from the spec's table, one per instruction, decode to their instruction,
the operand bytes in the order of the format. -/
def Obligations.SixteenWordsDecode : Prop :=
  decode [0x82#8, 0x01#8, 0xFE#8] = .ok (.ldi 0x01#8 0xFE#8, []) ∧
  decode [0x47#8, 0x02#8] = .ok (.prn 0x02#8, []) ∧
  decode [0x48#8, 0x03#8] = .ok (.pra 0x03#8, []) ∧
  decode [0x01#8] = .ok (.hlt, []) ∧
  decode [0xA0#8, 0x04#8, 0x05#8] = .ok (.add 0x04#8 0x05#8, []) ∧
  decode [0xA2#8, 0x06#8, 0x07#8] = .ok (.mul 0x06#8 0x07#8, []) ∧
  decode [0xA7#8, 0x00#8, 0x01#8] = .ok (.cmp 0x00#8 0x01#8, []) ∧
  decode [0x45#8, 0x02#8] = .ok (.push 0x02#8, []) ∧
  decode [0x46#8, 0x03#8] = .ok (.pop 0x03#8, []) ∧
  decode [0x50#8, 0x04#8] = .ok (.call 0x04#8, []) ∧
  decode [0x11#8] = .ok (.ret, []) ∧
  decode [0x54#8, 0x05#8] = .ok (.jmp 0x05#8, []) ∧
  decode [0x55#8, 0x06#8] = .ok (.jeq 0x06#8, []) ∧
  decode [0x56#8, 0x07#8] = .ok (.jne 0x07#8, []) ∧
  decode [0x84#8, 0x00#8, 0x09#8] = .ok (.st 0x00#8 0x09#8, []) ∧
  decode [0x13#8] = .ok (.iret, [])

/-- R79: a byte that is not one of the 16 opcodes of R77 is an unknown opcode whatever follows it, and each of the 16
has a row. -/
def Obligations.OtherBytesAreUnknownOpcodes : Prop :=
  ∀ op : Byte,
    (op ∉ [0x82#8, 0x47#8, 0x48#8, 0x01#8, 0xA0#8, 0xA2#8, 0xA7#8, 0x45#8, 0x46#8, 0x50#8, 0x11#8, 0x54#8, 0x55#8,
        0x56#8, 0x84#8, 0x13#8] →
      ∀ rest, decode (op :: rest) = .error (.unknownOpcode op)) ∧
    (op ∈ [0x82#8, 0x47#8, 0x48#8, 0x01#8, 0xA0#8, 0xA2#8, 0xA7#8, 0x45#8, 0x46#8, 0x50#8, 0x11#8, 0x54#8, 0x55#8,
        0x56#8, 0x84#8, 0x13#8] →
      ∀ a b rest, ∃ i rest', decode (op :: a :: b :: rest) = .ok (i, rest'))

/-- R71: the operand count of a listed opcode is the value of its two high bits, never 3. -/
def Obligations.OperandCountIsHighBits : Prop :=
  ∀ op e, lookup op = some e → e.operandCount = op.toNat / 64 ∧ e.operandCount ≤ 2

/-- R70 to R76, R78: decoding and encoding agree, both ways, for every instruction with every operand byte: what an
instruction encodes to decodes to it, and only that does. -/
def Obligations.DecodeEncodeAgree : Prop :=
  (∀ i rest, decode (encode i ++ rest) = .ok (i, rest)) ∧
  (∀ bytes i rest, decode bytes = .ok (i, rest) → bytes = encode i ++ rest)

/-- R70, R94 to R96, R31: the engine fetches an instruction exactly when its bytes stand in memory from `PC` up, each
address modulo 256. -/
def Obligations.FetchReadsEncodedBytes : Prop :=
  ∀ (s : State) (i : Instr),
    s.fetch = some i ↔
      ∀ (k : Nat) (h : k < (encode i).length), s.read (s.pc + BitVec.ofNat 8 k) = (encode i)[k]

/-- R75, R97: a register operand is an index exactly when the whole byte is below 8 (the choice of a fault above that is
the spec's decision D4). -/
def Obligations.RegisterIndexIsWholeByte : Prop :=
  ∀ v : Byte,
    (∀ h : v.toNat < 8, regIdx v = some ⟨v.toNat, h⟩) ∧ (8 ≤ v.toNat → regIdx v = none)

/-! Results of the instructions. Each gives the whole next state: what is not named in the record is unchanged. -/

/-- R100. -/
def Obligations.LdiLoadsImmediate : Prop :=
  ∀ (a b : Byte) (s : State) (rest : List Byte),
    decode (0x82#8 :: a :: b :: rest) = .ok (.ldi a b, rest) ∧
    (∀ h : a.toNat < 8,
      exec (.ldi a b) s = .next { s with regs := s.regs.set a.toNat b, pc := s.pc + 3#8 }) ∧
    (8 ≤ a.toNat → exec (.ldi a b) s = .next { s with run := false, cause := .addressOutOfRange, errb := a })

/-- R101. -/
def Obligations.StStoresRegister : Prop :=
  ∀ (a b : Byte) (s : State) (rest : List Byte),
    decode (0x84#8 :: a :: b :: rest) = .ok (.st a b, rest) ∧
    (∀ (ha : a.toNat < 8) (hb : b.toNat < 8),
      ∃ m, exec (.st a b) s = .next { s with mem := m, pc := s.pc + 3#8 } ∧
        ∀ d : Byte, Memory.read m d.toNat = if d = s.regs[a.toNat] then s.regs[b.toNat] else s.read d) ∧
    (8 ≤ a.toNat → exec (.st a b) s = .next { s with run := false, cause := .addressOutOfRange, errb := a }) ∧
    (a.toNat < 8 → 8 ≤ b.toNat →
      exec (.st a b) s = .next { s with run := false, cause := .addressOutOfRange, errb := b })

/-- R105. -/
def Obligations.PrnEmitsNumber : Prop :=
  ∀ (a : Byte) (s : State) (rest : List Byte),
    decode (0x47#8 :: a :: rest) = .ok (.prn a, rest) ∧
    (∀ h : a.toNat < 8,
      exec (.prn a) s =
        .next { s with out := s.out ++ [⟨.num, s.regs[a.toNat]⟩], pc := s.pc + 2#8 }) ∧
    (8 ≤ a.toNat → exec (.prn a) s = .next { s with run := false, cause := .addressOutOfRange, errb := a })

/-- R106; that a code of 0x80 or more is emitted as it is, is the spec's decision D27. -/
def Obligations.PraEmitsCharacter : Prop :=
  ∀ (a : Byte) (s : State) (rest : List Byte),
    decode (0x48#8 :: a :: rest) = .ok (.pra a, rest) ∧
    (∀ h : a.toNat < 8,
      exec (.pra a) s =
        .next { s with out := s.out ++ [⟨.chr, s.regs[a.toNat]⟩], pc := s.pc + 2#8 }) ∧
    (8 ≤ a.toNat → exec (.pra a) s = .next { s with run := false, cause := .addressOutOfRange, errb := a })

/-- R111: the sum is taken of the unsigned bytes and reduced modulo 256. -/
def Obligations.AddWrapsModulo256 : Prop :=
  ∀ (a b : Byte) (s : State) (rest : List Byte),
    decode (0xA0#8 :: a :: b :: rest) = .ok (.add a b, rest) ∧
    (∀ (ha : a.toNat < 8) (hb : b.toNat < 8),
      exec (.add a b) s =
        .next { s with
          regs := s.regs.set a.toNat (BitVec.ofNat 8 ((s.regs[a.toNat].toNat + s.regs[b.toNat].toNat) % 256))
          pc := s.pc + 3#8 }) ∧
    (8 ≤ a.toNat → exec (.add a b) s = .next { s with run := false, cause := .addressOutOfRange, errb := a }) ∧
    (a.toNat < 8 → 8 ≤ b.toNat →
      exec (.add a b) s = .next { s with run := false, cause := .addressOutOfRange, errb := b })

/-- R112: the product is taken of the unsigned bytes and reduced modulo 256. -/
def Obligations.MulWrapsModulo256 : Prop :=
  ∀ (a b : Byte) (s : State) (rest : List Byte),
    decode (0xA2#8 :: a :: b :: rest) = .ok (.mul a b, rest) ∧
    (∀ (ha : a.toNat < 8) (hb : b.toNat < 8),
      exec (.mul a b) s =
        .next { s with
          regs := s.regs.set a.toNat (BitVec.ofNat 8 ((s.regs[a.toNat].toNat * s.regs[b.toNat].toNat) % 256))
          pc := s.pc + 3#8 }) ∧
    (8 ≤ a.toNat → exec (.mul a b) s = .next { s with run := false, cause := .addressOutOfRange, errb := a }) ∧
    (a.toNat < 8 → 8 ≤ b.toNat →
      exec (.mul a b) s = .next { s with run := false, cause := .addressOutOfRange, errb := b })

/-- R113: exactly one of the three flag bytes, by comparing unsigned integers. -/
def Obligations.CmpSetsExactlyOneFlag : Prop :=
  ∀ (a b : Byte) (s : State) (rest : List Byte),
    decode (0xA7#8 :: a :: b :: rest) = .ok (.cmp a b, rest) ∧
    (∀ (ha : a.toNat < 8) (hb : b.toNat < 8),
      exec (.cmp a b) s =
        .next { s with
          fl := if s.regs[a.toNat].toNat = s.regs[b.toNat].toNat then 0x01#8
                else if s.regs[a.toNat].toNat > s.regs[b.toNat].toNat then 0x02#8 else 0x04#8
          pc := s.pc + 3#8 }) ∧
    (8 ≤ a.toNat → exec (.cmp a b) s = .next { s with run := false, cause := .addressOutOfRange, errb := a }) ∧
    (a.toNat < 8 → 8 ≤ b.toNat →
      exec (.cmp a b) s = .next { s with run := false, cause := .addressOutOfRange, errb := b })

/-- R122; that `PUSH R7` stores the decremented stack pointer is the spec's decision D13. -/
def Obligations.PushStoresBelowStackPointer : Prop :=
  ∀ (a : Byte) (s : State),
    (∀ h : a.toNat < 8,
      ∃ m, exec (.push a) s =
          .next { s with regs := s.regs.set 7 (s.regs[7] - 1#8), mem := m, pc := s.pc + 2#8 } ∧
        ∀ d : Byte, Memory.read m d.toNat =
          if d = s.regs[7] - 1#8 then (if a = 7#8 then s.regs[7] - 1#8 else s.regs[a.toNat]) else s.read d) ∧
    (8 ≤ a.toNat → exec (.push a) s = .next { s with run := false, cause := .addressOutOfRange, errb := a })

/-- R123; that `POP R7` leaves the popped byte plus one is the spec's decision D13. -/
def Obligations.PopLoadsFromStackPointer : Prop :=
  ∀ (a : Byte) (s : State),
    (∀ h : a.toNat < 8,
      exec (.pop a) s =
        .next { s with
          regs := if a = 7#8 then s.regs.set 7 (s.read s.regs[7] + 1#8)
                  else (s.regs.set a.toNat (s.read s.regs[7])).set 7 (s.regs[7] + 1#8)
          pc := s.pc + 2#8 }) ∧
    (8 ≤ a.toNat → exec (.pop a) s = .next { s with run := false, cause := .addressOutOfRange, errb := a })

/-- R130; that `CALL R7` jumps to the decremented stack pointer is the spec's decision D13. -/
def Obligations.CallPushesReturnAddress : Prop :=
  ∀ (a : Byte) (s : State),
    (∀ h : a.toNat < 8,
      ∃ m, exec (.call a) s =
          .next { s with
            regs := s.regs.set 7 (s.regs[7] - 1#8)
            mem := m
            pc := if a = 7#8 then s.regs[7] - 1#8 else s.regs[a.toNat] } ∧
        ∀ d : Byte, Memory.read m d.toNat = if d = s.regs[7] - 1#8 then s.pc + 2#8 else s.read d) ∧
    (8 ≤ a.toNat → exec (.call a) s = .next { s with run := false, cause := .addressOutOfRange, errb := a })

/-- R131. -/
def Obligations.RetPopsProgramCounter : Prop :=
  ∀ (s : State) (rest : List Byte),
    decode (0x11#8 :: rest) = .ok (.ret, rest) ∧
    exec .ret s = .next { s with pc := s.read s.regs[7], regs := s.regs.set 7 (s.regs[7] + 1#8) }

/-- R132. -/
def Obligations.JmpTakesRegister : Prop :=
  ∀ (a : Byte) (s : State) (rest : List Byte),
    decode (0x54#8 :: a :: rest) = .ok (.jmp a, rest) ∧
    (∀ h : a.toNat < 8, exec (.jmp a) s = .next { s with pc := s.regs[a.toNat] }) ∧
    (8 ≤ a.toNat → exec (.jmp a) s = .next { s with run := false, cause := .addressOutOfRange, errb := a })

/-- R133: bit 0 of `FL` alone decides; the index is checked in both cases. -/
def Obligations.JeqTestsEqualBit : Prop :=
  ∀ (a : Byte) (s : State) (rest : List Byte),
    decode (0x55#8 :: a :: rest) = .ok (.jeq a, rest) ∧
    (∀ h : a.toNat < 8,
      exec (.jeq a) s =
        .next { s with pc := if s.fl.toNat % 2 = 1 then s.regs[a.toNat] else s.pc + 2#8 }) ∧
    (8 ≤ a.toNat → exec (.jeq a) s = .next { s with run := false, cause := .addressOutOfRange, errb := a })

/-- R134: the exact complement of R133. -/
def Obligations.JneTestsEqualBit : Prop :=
  ∀ (a : Byte) (s : State) (rest : List Byte),
    decode (0x56#8 :: a :: rest) = .ok (.jne a, rest) ∧
    (∀ h : a.toNat < 8,
      exec (.jne a) s =
        .next { s with pc := if s.fl.toNat % 2 = 0 then s.regs[a.toNat] else s.pc + 2#8 }) ∧
    (8 ≤ a.toNat → exec (.jne a) s = .next { s with run := false, cause := .addressOutOfRange, errb := a })

/-- R140; that `PC` passes the `HLT` byte is the spec's decision D25. -/
def Obligations.HltEndsRun : Prop :=
  ∀ s : State,
    exec .hlt s = .next { s with run := false, cause := .hlt, errb := 0x00#8, pc := s.pc + 1#8 }

/-- R141; that `FL` is stored unmasked and that `TB` takes this cycle's sample are the spec's decisions D14 and D8. -/
def Obligations.IretRestoresNineBytes : Prop :=
  ∀ s : State,
    exec .iret s =
      .next { s with
        regs := #v[s.read (s.regs[7] + 6#8), s.read (s.regs[7] + 5#8), s.read (s.regs[7] + 4#8),
                   s.read (s.regs[7] + 3#8), s.read (s.regs[7] + 2#8), s.read (s.regs[7] + 1#8),
                   s.read s.regs[7], s.regs[7] + 9#8]
        fl := s.read (s.regs[7] + 7#8)
        pc := s.read (s.regs[7] + 8#8)
        tb := s.seconds }

/-! Faults (spec/60_exceptions.md). -/

/-- R97, R152, R155: an instruction with a register operand of 8 or more stops the run with the first such operand in
`ERRB`, and writes nothing else. The fault, the order of the checks and the state left are the spec's decisions D4,
D22 and D11. -/
def Obligations.BadRegisterIndexStopsRun : Prop :=
  ∀ (i : Instr) (s : State) (v : Byte),
    firstBadOperand i = some v →
      exec i s = .next { s with run := false, cause := .addressOutOfRange, errb := v }

/-- R151: in a cycle that fetches, a byte that is none of the 16 opcodes stops the run with that byte in `ERRB` and
`PC` on it, and nothing else changes. `u` is the state after the cycle's timer sample, for the host's next `T` and, when
the script is used up, for a free one (`State.BeginsCycle`). -/
def Obligations.UnknownOpcodeStopsRun : Prop :=
  ∀ s u : State, s.BeginsCycle u → u.interruptPending = false →
    s.read s.pc ∉ [0x82#8, 0x47#8, 0x48#8, 0x01#8, 0xA0#8, 0xA2#8, 0xA7#8, 0x45#8, 0x46#8, 0x50#8, 0x11#8, 0x54#8,
      0x55#8, 0x56#8, 0x84#8, 0x13#8] →
      step s = .next { u with run := false, cause := .unknownOpcode, errb := s.read s.pc }

/-- R153, R114: the ALU given a select value that names no operation stops the run with `UnsupportedOperation` and
`ERRB` 0x00; no instruction makes that the cause. The unreachability is the spec's decision D18. -/
def Obligations.UnsupportedOperationIsUnreachable : Prop :=
  (∀ (a b : Byte) (s : State), a.toNat < 8 → b.toNat < 8 →
    aluInstr .other a b s = .next { s with run := false, cause := .unsupportedOperation, errb := 0x00#8 }) ∧
  (∀ (i : Instr) (s t : State), exec i s = .next t → t.cause = .unsupportedOperation →
    s.cause = .unsupportedOperation)

/-! Frames: what an instruction leaves unchanged when `exec` gives a next state. -/

/-- R21, R53, R124: which registers an instruction leaves alone. LDI, ADD and MUL write the register of their first
operand; POP writes its operand's register and the stack pointer `x[7]`; PUSH, CALL and RET write the stack pointer;
IRET writes all eight; the others write none. -/
def Obligations.RegisterFrame : Prop :=
  ∀ (i : Instr) (s t : State), exec i s = .next t → ∀ r : RegIndex,
    match i with
    | .ldi a _ | .add a _ | .mul a _ => r.val ≠ a.toNat → t.x r = s.x r
    | .pop a => r.val ≠ a.toNat → r ≠ 7 → t.x r = s.x r
    | .push _ | .call _ | .ret => r ≠ 7 → t.x r = s.x r
    | .prn _ | .pra _ | .hlt | .cmp _ _ | .jmp _ | .jeq _ | .jne _ | .st _ _ => t.x r = s.x r
    | .iret => True

/-- R53, property 9 of spec/95_test_vectors.md section 5: ST, PUSH and CALL change the one cell at the address they
store to; an instruction that does not store changes no cell. -/
def Obligations.MemoryFrame : Prop :=
  ∀ (i : Instr) (s t : State), exec i s = .next t →
    (∀ c, storeAddress i s = some c → ∀ d, d ≠ c → t.read d = s.read d) ∧
    (storeAddress i s = none → ∀ d, t.read d = s.read d)

/-- R28: `FL` is written by CMP and IRET and by nothing else (that IRET writes all of it: D14). -/
def Obligations.FlagsFrame : Prop :=
  ∀ (i : Instr) (s t : State), exec i s = .next t → (∀ a b, i ≠ .cmp a b) → i ≠ .iret → t.fl = s.fl

/-- R107: PRN and PRA with a register index append one event, and nothing else touches the output. -/
def Obligations.OutputFrame : Prop :=
  ∀ (i : Instr) (s t : State), exec i s = .next t →
    ((∀ a, i ≠ .prn a) → (∀ a, i ≠ .pra a) → t.out = s.out) ∧ s.out <+: t.out ∧ t.out.length ≤ s.out.length + 1

/-- R32, R33, R34, R155: `RUN`, `CAUSE` and `ERRB` change only by HLT and by a bad register index; `TB` only by IRET;
the parameters, the sample of `T`, the host's script and the draw counter not at all. -/
def Obligations.RunStateFrame : Prop :=
  ∀ (i : Instr) (s t : State), exec i s = .next t →
    (i ≠ .hlt → i.wellFormed = true → t.run = s.run ∧ t.cause = s.cause ∧ t.errb = s.errb) ∧
    (i ≠ .iret → t.tb = s.tb) ∧
    t.params = s.params ∧ t.seconds = s.seconds ∧ t.inputs = s.inputs ∧ t.draws = s.draws

/-! Memory and the stack. -/

/-- R51: a store changes the named cell to the byte and no other cell; reading it is by address. -/
def Obligations.StoreChangesOneCell : Prop :=
  ∀ (s : State) (a v d : Byte),
    (s.store a v).read a = v ∧ (d ≠ a → (s.store a v).read d = s.read d) ∧
    s.store a v = { s with mem := (s.store a v).mem }

/-- R50: memory is its 256 cells and nothing more: two memories in canonical form (the model's) that read the same at
every address are equal. -/
def Obligations.MemoryIsItsCells : Prop :=
  ∀ m m' : Memory, Memory.wf m = true → Memory.wf m' = true →
    (∀ d : Byte, Memory.read m d.toNat = Memory.read m' d.toNat) → m = m'

/-- R120: Push decrements `x[7]` modulo 256, then writes the byte at it. -/
def Obligations.PushDecrementsThenWrites : Prop :=
  ∀ (s : State) (v : Byte),
    ∃ m, s.push v = { s with regs := s.regs.set 7 (BitVec.ofNat 8 ((s.regs[7].toNat + 255) % 256)), mem := m } ∧
      ∀ d : Byte, Memory.read m d.toNat =
        if d.toNat = (s.regs[7].toNat + 255) % 256 then v else s.read d

/-- R121: Pop reads at `x[7]`, then increments it modulo 256; no cell changes. -/
def Obligations.PopReadsThenIncrements : Prop :=
  ∀ s : State,
    s.top = s.read s.regs[7] ∧
    s.drop = { s with regs := s.regs.set 7 (BitVec.ofNat 8 ((s.regs[7].toNat + 1) % 256)) }

/-- R123, property 4 of spec/95_test_vectors.md section 5: PUSH then POP of one register restores every register, the
stack pointer included, for all eight registers. That it holds for register 7 too rests on the spec's decision D13. -/
def Obligations.PushPopRestoresRegisters : Prop :=
  ∀ (a : Byte) (s : State), a.toNat < 8 →
    ∃ t u, exec (.push a) s = .next t ∧ exec (.pop a) t = .next u ∧ u.regs = s.regs ∧ u.pc = s.pc + 4#8

/-- R130, R131, property 5 of spec/95_test_vectors.md section 5: CALL then RET at the target continues at the byte
after the CALL's operand and restores the stack pointer. -/
def Obligations.CallRetReturns : Prop :=
  ∀ (a : Byte) (s : State), a.toNat < 8 →
    ∃ t u, exec (.call a) s = .next t ∧ exec .ret t = .next u ∧ u.pc = s.pc + 2#8 ∧ u.regs = s.regs

/-! The timer interrupt (spec/60_exceptions.md). -/

/-- R160: the tick is exactly one second past the baseline, 59 followed by 0 (the wrap is the spec's decision D7). -/
def Obligations.TickIsOneSecondLater : Prop :=
  ∀ tb t : Second, advancedByOne tb t = true ↔ (t.val = tb.val + 1 ∨ (tb.val = 59 ∧ t.val = 0))

/-- R159, R92: in a tick the timer's bit of `x[6]` becomes 1; its other bits, without a tick all of them, and
everything else but the sample of `T` stay. That the test is repeated in every cycle is the spec's decision D16. -/
def Obligations.TimerSetsItsPendingBit : Prop :=
  ∀ (s : State) (t : Second),
    ∃ v : Byte, s.timerPhase t = { s with regs := s.regs.set 6 v, seconds := t } ∧
      ∀ k : Fin 8, v.getLsbD k.val =
        (s.regs[6].getLsbD k.val || (decide (k = s.params.timerBit) && advancedByOne s.tb t))

/-- R163, R93, R91, R95: in every cycle, with the host's next `T` or, when the script is used up, a free one
(`State.BeginsCycle`): with a pending, unmasked bit, in any of the 8 positions, the engine enters interrupt service
instead of fetching, whatever byte is at `PC`; without, it runs the instruction it fetches, and a byte with no row is
an unknown opcode. That entry is the whole cycle's work is the spec's decision D15 (notes/assumptions/15.md). -/
def Obligations.UnmaskedPendingBitInterrupts : Prop :=
  ∀ s u : State, s.BeginsCycle u →
      (u.interruptPending = true ↔ ∃ k : Fin 8, (u.x 6).getLsbD k.val = true ∧ (u.x 5).getLsbD k.val = true) ∧
      (u.interruptPending = true → step s = .next u.interruptEntry) ∧
      (u.interruptPending = false → ∀ i, u.fetch = some i → step s = exec i u) ∧
      (u.interruptPending = false → u.fetch = none → step s = .next (u.raise .unknownOpcode (u.read u.pc)))

/-- R164: entry clears `x[6]`, pushes `PC`, `FL` and `x[0]` to `x[6]` (the last as 0x00) at descending addresses, and
continues at the address then in the vector cell; every other register, `FL`, `TB` and every other cell stay. -/
def Obligations.InterruptEntryPushesNineBytes : Prop :=
  ∀ s : State,
    ∃ m, s.interruptEntry =
        { s with
          regs := (s.regs.set 6 0x00#8).set 7 (s.regs[7] - 9#8)
          mem := m
          pc := Memory.read m s.params.ivec.toNat } ∧
      ∀ d : Byte, Memory.read m d.toNat =
        if d = s.regs[7] - 1#8 then s.pc
        else if d = s.regs[7] - 2#8 then s.fl
        else if d = s.regs[7] - 3#8 then s.regs[0]
        else if d = s.regs[7] - 4#8 then s.regs[1]
        else if d = s.regs[7] - 5#8 then s.regs[2]
        else if d = s.regs[7] - 6#8 then s.regs[3]
        else if d = s.regs[7] - 7#8 then s.regs[4]
        else if d = s.regs[7] - 8#8 then s.regs[5]
        else if d = s.regs[7] - 9#8 then 0x00#8
        else s.read d

/-- R164, R141, property 6 of spec/95_test_vectors.md section 5: from any state `h` whose stack pointer and nine frame
cells are as entry left them, IRET restores `PC`, `FL`, `x[0]` to `x[5]` and `x[7]` of the interrupted state, leaves
`x[6]` 0x00 (C4), re-arms the timer with this cycle's sample (D8), `FL` unmasked (D14), and keeps everything else of
`h`. -/
def Obligations.InterruptRoundTrip : Prop :=
  ∀ s h : State,
    h.x 7 = s.interruptEntry.x 7 →
    (∀ k : Nat, k < 9 → h.read (h.x 7 + BitVec.ofNat 8 k) = s.interruptEntry.read (h.x 7 + BitVec.ofNat 8 k)) →
      exec .iret h =
        .next { h with regs := s.regs.set 6 0x00#8, fl := s.fl, pc := s.pc, tb := h.seconds }

/-- R167, R200, vector I10: while `T` stays one second past the baseline and the mask holds the timer's bit, the cycle
after an entry enters again before the handler's first instruction: two frames, the second with the handler's address
as its saved `PC`. That entry takes a whole cycle, and that the same second's tick fires again, are the spec's
decisions D15 and D16. -/
def Obligations.TimerReentersEveryCycle : Prop :=
  ∀ (s : State) (t : Second) (rest : List HostInput),
    s.inputs = .cycle t :: .cycle t :: rest → s.run = true → advancedByOne s.tb t = true →
    (s.x 5).getLsbD s.params.timerBit.val = true →
      ∃ u v, step s = .next u ∧ step u = .next v ∧
        u.x 7 = s.x 7 - 9#8 ∧ v.x 7 = s.x 7 - 18#8 ∧ u.pc = u.read s.params.ivec ∧
        v.read (s.x 7 - 10#8) = u.pc ∧ v.pc = v.read s.params.ivec ∧ v.x 6 = 0x00#8 ∧ v.tb = s.tb ∧ v.inputs = rest

/-! The cycle and the run (spec/40_execution_cycle.md, spec/70_reset_and_hazards.md). -/

/-- R91: a cycle that takes no interrupt and whose bytes at `PC` decode to an instruction is that instruction's
execution, in the state after the cycle's timer sample. It holds of the host's next `T` and, when the script is used
up, of a free one (notes/assumptions/2.md, 4.md). -/
def Obligations.StepRunsDecodedInstruction : Prop :=
  ∀ (s u : State) (i : Instr) (after : List Byte),
    s.BeginsCycle u → u.interruptPending = false →
    decode [s.read s.pc, s.read (s.pc + 1#8), s.read (s.pc + 2#8)] = .ok (i, after) →
      step s = exec i u

/-- R98, R155, property 1 of spec/95_test_vectors.md section 5: every step answers a next state, but for a use of the
loader port outside the interval between reset and `run`, which the host may not make (D29) and which stops by name (the model's choice, notes/assumptions/5.md). -/
def Obligations.StepStopsOnlyOnLoaderMisuse : Prop :=
  ∀ s : State,
    (∃ t, step s = .next t) ∨
    (step s = .fault .loaderNotIdle ∧ (s.run = true ∨ s.cause ≠ .none) ∧
      ∃ a v rest, s.inputs = .load a v :: rest)

/-- R90, R176, D19: HALTED is terminal. From a halted state a step other than the reset input changes nothing of the
machine: it only takes the host's input. -/
def Obligations.HaltedIsTerminal : Prop :=
  ∀ s t : State, s.run = false → s.cause ≠ .none → step s = .next t → (∀ rest, s.inputs ≠ .reset :: rest) →
    t = { s with inputs := s.inputs.tail }

/-- R191: the loader's write changes the one memory cell and nothing else of the machine. That one byte is one input,
and that the interval is `RUN = 0` with no stop recorded, is the model's choice (notes/assumptions/4.md, 5.md). -/
def Obligations.LoaderWritesMemoryOnly : Prop :=
  ∀ (s : State) (a v : Byte) (rest : List HostInput),
    s.inputs = .load a v :: rest → s.run = false → s.cause = .none →
      ∃ m, step s = .next { s with inputs := rest, mem := m } ∧
        ∀ d : Byte, Memory.read m d.toNat = if d = a then v else s.read d

/-- R192, D28: the `run` request starts the run, with `TB` the seconds presented; it has no effect while running and
none in HALTED. When it starts the run it also records the sample in the model's own field `seconds`
(notes/assumptions/7.md, 15.md). That it is taken when `RUN = 0` with no stop recorded is the model's reading of
"before the run" (notes/assumptions/4.md, 5.md). -/
def Obligations.RunRequestStartsRun : Prop :=
  ∀ (s : State) (t : Second) (rest : List HostInput),
    s.inputs = .run t :: rest →
      step s =
        if s.run = false ∧ s.cause = .none then
          .next { s with inputs := rest, run := true, cause := .none, errb := 0x00#8, tb := t, seconds := t }
        else .next { s with inputs := rest }

/-- R190, R40, R41, R42: what the reset input leaves, from every state. The zeros of `x[0]` to `x[6]` and `FL` are the
spec's decision D9, those of memory D10. That the output list is empty is the model's choice (notes/assumptions/1.md, 7.md), read from the
start states of spec/95_test_vectors.md section 4; R190 says only that reset produces no event. That the parameters and
the rest of the script stay is the model's choice too (notes/assumptions/3.md, 7.md). `seconds` is the model's own field
and is not claimed. -/
def Obligations.ResetInputLeaves : Prop :=
  ∀ (s : State) (rest : List HostInput), s.inputs = .reset :: rest →
    ∃ t, step s = .next t ∧ t.run = false ∧ t.pc = 0x00#8 ∧ (∀ r : RegIndex, t.x r = if r = 7 then 0xF4#8 else 0x00#8) ∧
      t.fl = 0x00#8 ∧ t.cause = .none ∧ t.errb = 0x00#8 ∧ t.tb = 0 ∧ (∀ d : Byte, t.read d = 0x00#8) ∧ t.out = [] ∧
      t.params = s.params ∧ t.inputs = rest

/-- R190: `State.reset` is what the reset input leaves: the machine right after reset. Same decisions as above. -/
def Obligations.ResetStateValues : Prop :=
  State.reset.run = false ∧ State.reset.pc = 0x00#8 ∧
  (∀ r : RegIndex, State.reset.x r = if r = 7 then 0xF4#8 else 0x00#8) ∧
  State.reset.fl = 0x00#8 ∧ State.reset.cause = .none ∧ State.reset.errb = 0x00#8 ∧ State.reset.tb = 0 ∧
  (∀ d : Byte, State.reset.read d = 0x00#8)

/-- R66: with a byte 0x00 at `PC`, a cycle that takes no interrupt stops the run as an unknown opcode 0x00; for the
host's next `T` and, when the script is used up, for a free one (`State.BeginsCycle`). -/
def Obligations.ZeroByteStopsRun : Prop :=
  ∀ s u : State, s.BeginsCycle u → u.interruptPending = false → s.read s.pc = 0x00#8 →
    ∃ t, step s = .next t ∧ t.run = false ∧ t.cause = .unknownOpcode ∧ t.errb = 0x00#8 ∧ t.pc = s.pc

/-! Whole-machine rules. -/

/-- The invariant of `State.Inv` holds right after reset. -/
def Obligations.ResetMeetsInvariant : Prop := State.reset.Inv

/-- R33, R50, R114, R157: every step keeps the invariant: memory stays canonical, a running engine has recorded no
stop, and a run that a fault stopped stays precisely at the faulting instruction, whose opcode or operand `ERRB` is. -/
def Obligations.StepKeepsInvariant : Prop :=
  ∀ s t : State, s.Inv → step s = .next t → t.Inv

/-- R38 (c): no step changes the parameters `IVEC` and `TIMER_BIT`. -/
def Obligations.StepKeepsParameters : Prop :=
  ∀ s t : State, step s = .next t → t.params = s.params

/-- R53, property 9 of spec/95_test_vectors.md section 5: in a cycle, memory changes only by interrupt entry or by ST,
PUSH or CALL. -/
def Obligations.OnlyStoresAndEntryChangeMemory : Prop :=
  ∀ (s t : State) (sec : Second), s.cycle sec = .next t → t.mem ≠ s.mem →
    (s.timerPhase sec).interruptPending = true ∨
      ∃ i, s.fetch = some i ∧ ((∃ a b, i = .st a b) ∨ (∃ a, i = .push a) ∨ (∃ a, i = .call a))

/-- R159, R163, property 7 of spec/95_test_vectors.md section 5: while the mask is zero and the instruction at `PC` does
not name register 6, a step depends on time only in `x[6]`, `TB` and the sample: two states that agree but for these,
given any two values of `T`, again agree but for these. -/
def Obligations.MaskedStepIgnoresTime : Prop :=
  ∀ (s s' : State) (t t' : Second) (rest : List HostInput),
    s.SameButTime s' → s.inputs = .cycle t :: rest → s'.inputs = .cycle t' :: rest → s.x 5 = 0x00#8 →
    (∀ i, s.fetch = some i → 6#8 ∉ i.regOperands) →
      ∃ u u', step s = .next u ∧ step s' = .next u' ∧ u.SameButTime u' ∧ u.inputs = rest ∧ u'.inputs = rest
end

