-- ==== Sys2Proof/Laws/Memory.lean ====
section
/-! SUPPORT. Memory: what a read gives after a write, and that every memory operation keeps the canonical form. -/

namespace Sys2Proof.Machine

theorem Memory.read_erase (m : Memory) (a d : Nat) :
    (m.erase a).read d = if a = d then Config.cellInit else m.read d := by
  induction m with
  | nil => simp [Memory.erase, Memory.read]
  | cons p rest ih =>
    obtain ⟨k, w⟩ := p
    by_cases hk : k = a
    · subst hk
      by_cases hd : k = d
      · subst hd
        simpa [Memory.erase, Memory.read] using ih
      · simp [Memory.erase, Memory.read, ih, hd]
    · by_cases hd : k = d
      · subst hd
        simp [Memory.erase, Memory.read, hk, Ne.symm hk]
      · simp [Memory.erase, Memory.read, hk, hd, ih]

theorem Memory.read_insert (m : Memory) (a d : Nat) (v : Byte) (h : m.read a = Config.cellInit ∨ a ≠ d)
    (hm : ∀ p ∈ m, p.1 ≠ a) : (m.insert a v).read d = if a = d then v else m.read d := by
  induction m with
  | nil => simp [Memory.insert, Memory.read]
  | cons p rest ih =>
    obtain ⟨k, w⟩ := p
    have hk : k ≠ a := hm (k, w) (by simp)
    have hrest : ∀ p ∈ rest, p.1 ≠ a := fun p hp => hm p (by simp [hp])
    by_cases hlt : a < k
    · simp [Memory.insert, Memory.read, hlt]
    · have h' : Memory.read rest a = Config.cellInit ∨ a ≠ d := by
        rcases h with h | h
        · left; simpa [Memory.read, hk] using h
        · exact Or.inr h
      by_cases hd : k = d
      · subst hd
        simp [Memory.insert, Memory.read, hlt, Ne.symm hk]
      · simp [Memory.insert, Memory.read, hlt, hd, ih h' hrest]

theorem Memory.erase_keys (m : Memory) (a : Nat) : ∀ p ∈ m.erase a, p.1 ≠ a := by
  induction m with
  | nil => simp [Memory.erase]
  | cons p rest ih =>
    obtain ⟨k, w⟩ := p
    by_cases hk : k = a
    · simpa [Memory.erase, hk] using ih
    · intro q hq
      simp only [Memory.erase, hk, if_false, List.mem_cons] at hq
      rcases hq with rfl | hq
      · exact hk
      · exact ih q hq

/-- A read after a write: the byte written at that address, the old byte at every other (R51). It holds of any list,
canonical or not. -/
theorem Memory.read_write (m : Memory) (a d : Nat) (v : Byte) :
    (m.write a v).read d = if a = d then v else m.read d := by
  unfold Memory.write
  split
  · next hv => subst hv; exact Memory.read_erase m a d
  · rw [Memory.read_insert _ _ _ _ (Or.inl (by simp [Memory.read_erase])) (Memory.erase_keys m a)]
    by_cases h : a = d <;> simp [Memory.read_erase, h]

theorem Memory.wfFrom_mono {m : Memory} {lo lo' : Nat} (h : lo' ≤ lo) (hm : m.wfFrom lo = true) :
    m.wfFrom lo' = true := by
  cases m with
  | nil => rfl
  | cons p rest =>
    obtain ⟨k, w⟩ := p
    simp only [Memory.wfFrom, Bool.and_eq_true, decide_eq_true_eq] at hm ⊢
    obtain ⟨⟨⟨h1, h2⟩, h3⟩, h4⟩ := hm
    exact ⟨⟨⟨by omega, h2⟩, h3⟩, h4⟩

theorem Memory.wfFrom_erase (m : Memory) (a lo : Nat) (hm : m.wfFrom lo = true) : (m.erase a).wfFrom lo = true := by
  induction m generalizing lo with
  | nil => rfl
  | cons p rest ih =>
    obtain ⟨k, w⟩ := p
    simp only [Memory.wfFrom, Bool.and_eq_true, decide_eq_true_eq] at hm
    obtain ⟨⟨⟨h1, h2⟩, h3⟩, h4⟩ := hm
    by_cases hk : k = a
    · simp only [Memory.erase, hk, if_true]
      exact ih lo (Memory.wfFrom_mono (by omega) h4)
    · simp only [Memory.erase, hk, if_false, Memory.wfFrom, Bool.and_eq_true, decide_eq_true_eq]
      exact ⟨⟨⟨h1, h2⟩, h3⟩, ih (k + 1) h4⟩

theorem Memory.wfFrom_insert (m : Memory) (a lo : Nat) (v : Byte) (hlo : lo ≤ a) (ha : a < 256)
    (hv : v ≠ Config.cellInit) (hk : ∀ p ∈ m, p.1 ≠ a) (hm : m.wfFrom lo = true) : (m.insert a v).wfFrom lo = true := by
  induction m generalizing lo with
  | nil => simp [Memory.insert, Memory.wfFrom, hlo, ha, hv]
  | cons p rest ih =>
    obtain ⟨k, w⟩ := p
    have hne : k ≠ a := hk (k, w) (by simp)
    have hrest : ∀ p ∈ rest, p.1 ≠ a := fun p hp => hk p (by simp [hp])
    simp only [Memory.wfFrom, Bool.and_eq_true, decide_eq_true_eq] at hm
    obtain ⟨⟨⟨h1, h2⟩, h3⟩, h4⟩ := hm
    by_cases hlt : a < k
    · simp only [Memory.insert, hlt, if_true, Memory.wfFrom, Bool.and_eq_true, decide_eq_true_eq]
      exact ⟨⟨⟨hlo, ha⟩, hv⟩, ⟨⟨⟨by omega, h2⟩, h3⟩, h4⟩⟩
    · simp only [Memory.insert, hlt, if_false, Memory.wfFrom, Bool.and_eq_true, decide_eq_true_eq]
      exact ⟨⟨⟨h1, h2⟩, h3⟩, ih (k + 1) (by omega) hrest h4⟩

/-- A write to one of the 256 cells keeps the canonical form. -/
theorem Memory.wf_write (m : Memory) (a : Byte) (v : Byte) (hm : m.wf = true) : (m.write a.toNat v).wf = true := by
  unfold Memory.wf Memory.write at *
  split
  · exact Memory.wfFrom_erase m _ 0 hm
  · next hv =>
    exact Memory.wfFrom_insert _ _ 0 v (by omega) a.isLt hv (Memory.erase_keys m _) (Memory.wfFrom_erase m _ 0 hm)

/-- Erasing keeps the canonical form. -/
theorem Memory.wf_erase (m : Memory) (a : Nat) (hm : m.wf = true) : (m.erase a).wf = true :=
  Memory.wfFrom_erase m a 0 hm

/-- Memory after reset has the canonical form. -/
theorem Memory.wf_reset : State.reset.mem.wf = true := rfl

end Sys2Proof.Machine
end

