-- ==== Sys2Proof/Laws/State.lean ====
section
/-! SUPPORT. What each named update of the state does to each field: one lemma per field per update, so that no proof
unfolds a record update; and what it does to `x[i]` and to a memory cell. -/

namespace Sys2Proof.Machine

/-! Registers. -/

/-- `x[i]` after `x[i] <- v`, and every other register. -/
@[simp] theorem State.setX_x (s : State) (i j : RegIndex) (v : Byte) :
    (s.setX i v).x j = if i = j then v else s.x j := by
  simp only [State.setX, State.x, Vector.getElem_set, Fin.ext_iff]

/-- A memory cell after a store. -/
theorem State.store_read (s : State) (a v d : Byte) : (s.store a v).read d = if a = d then v else s.read d := by
  have h : (a.toNat = d.toNat) ↔ a = d := BitVec.toNat_inj
  simp only [State.store, State.read, Memory.read_write, h]

@[simp] theorem State.store_read_self (s : State) (a v : Byte) : (s.store a v).read a = v := by
  simp [State.store_read]

theorem State.store_read_other (s : State) (a v d : Byte) (h : a ≠ d) : (s.store a v).read d = s.read d := by
  simp [State.store_read, h]

/-- Registers that read the same are the same. -/
theorem State.regs_ext {s t : State} (h : ∀ r, s.x r = t.x r) : s.regs = t.regs :=
  Vector.ext fun k hk => h ⟨k, hk⟩

/-! `setX`. -/

@[simp] theorem State.setX_regs (s : State) (i : RegIndex) (v : Byte) : (s.setX i v).regs = s.regs.set i.val v := rfl
@[simp] theorem State.setX_fl (s : State) (i : RegIndex) (v : Byte) : (s.setX i v).fl = s.fl := rfl
@[simp] theorem State.setX_pc (s : State) (i : RegIndex) (v : Byte) : (s.setX i v).pc = s.pc := rfl
@[simp] theorem State.setX_run (s : State) (i : RegIndex) (v : Byte) : (s.setX i v).run = s.run := rfl
@[simp] theorem State.setX_cause (s : State) (i : RegIndex) (v : Byte) : (s.setX i v).cause = s.cause := rfl
@[simp] theorem State.setX_errb (s : State) (i : RegIndex) (v : Byte) : (s.setX i v).errb = s.errb := rfl
@[simp] theorem State.setX_tb (s : State) (i : RegIndex) (v : Byte) : (s.setX i v).tb = s.tb := rfl
@[simp] theorem State.setX_mem (s : State) (i : RegIndex) (v : Byte) : (s.setX i v).mem = s.mem := rfl
@[simp] theorem State.setX_out (s : State) (i : RegIndex) (v : Byte) : (s.setX i v).out = s.out := rfl
@[simp] theorem State.setX_params (s : State) (i : RegIndex) (v : Byte) : (s.setX i v).params = s.params := rfl
@[simp] theorem State.setX_seconds (s : State) (i : RegIndex) (v : Byte) : (s.setX i v).seconds = s.seconds := rfl
@[simp] theorem State.setX_inputs (s : State) (i : RegIndex) (v : Byte) : (s.setX i v).inputs = s.inputs := rfl
@[simp] theorem State.setX_draws (s : State) (i : RegIndex) (v : Byte) : (s.setX i v).draws = s.draws := rfl
@[simp] theorem State.setX_read (s : State) (i : RegIndex) (v : Byte) (d : Byte) : (s.setX i v).read d = s.read d := rfl

/-! `setFl`. -/

@[simp] theorem State.setFl_regs (s : State) (v : Byte) : (s.setFl v).regs = s.regs := rfl
@[simp] theorem State.setFl_fl (s : State) (v : Byte) : (s.setFl v).fl = v := rfl
@[simp] theorem State.setFl_pc (s : State) (v : Byte) : (s.setFl v).pc = s.pc := rfl
@[simp] theorem State.setFl_run (s : State) (v : Byte) : (s.setFl v).run = s.run := rfl
@[simp] theorem State.setFl_cause (s : State) (v : Byte) : (s.setFl v).cause = s.cause := rfl
@[simp] theorem State.setFl_errb (s : State) (v : Byte) : (s.setFl v).errb = s.errb := rfl
@[simp] theorem State.setFl_tb (s : State) (v : Byte) : (s.setFl v).tb = s.tb := rfl
@[simp] theorem State.setFl_mem (s : State) (v : Byte) : (s.setFl v).mem = s.mem := rfl
@[simp] theorem State.setFl_out (s : State) (v : Byte) : (s.setFl v).out = s.out := rfl
@[simp] theorem State.setFl_params (s : State) (v : Byte) : (s.setFl v).params = s.params := rfl
@[simp] theorem State.setFl_seconds (s : State) (v : Byte) : (s.setFl v).seconds = s.seconds := rfl
@[simp] theorem State.setFl_inputs (s : State) (v : Byte) : (s.setFl v).inputs = s.inputs := rfl
@[simp] theorem State.setFl_draws (s : State) (v : Byte) : (s.setFl v).draws = s.draws := rfl
@[simp] theorem State.setFl_x (s : State) (v : Byte) (j : RegIndex) : (s.setFl v).x j = s.x j := rfl
@[simp] theorem State.setFl_read (s : State) (v : Byte) (d : Byte) : (s.setFl v).read d = s.read d := rfl

/-! `setPc`. -/

@[simp] theorem State.setPc_regs (s : State) (v : Byte) : (s.setPc v).regs = s.regs := rfl
@[simp] theorem State.setPc_fl (s : State) (v : Byte) : (s.setPc v).fl = s.fl := rfl
@[simp] theorem State.setPc_pc (s : State) (v : Byte) : (s.setPc v).pc = v := rfl
@[simp] theorem State.setPc_run (s : State) (v : Byte) : (s.setPc v).run = s.run := rfl
@[simp] theorem State.setPc_cause (s : State) (v : Byte) : (s.setPc v).cause = s.cause := rfl
@[simp] theorem State.setPc_errb (s : State) (v : Byte) : (s.setPc v).errb = s.errb := rfl
@[simp] theorem State.setPc_tb (s : State) (v : Byte) : (s.setPc v).tb = s.tb := rfl
@[simp] theorem State.setPc_mem (s : State) (v : Byte) : (s.setPc v).mem = s.mem := rfl
@[simp] theorem State.setPc_out (s : State) (v : Byte) : (s.setPc v).out = s.out := rfl
@[simp] theorem State.setPc_params (s : State) (v : Byte) : (s.setPc v).params = s.params := rfl
@[simp] theorem State.setPc_seconds (s : State) (v : Byte) : (s.setPc v).seconds = s.seconds := rfl
@[simp] theorem State.setPc_inputs (s : State) (v : Byte) : (s.setPc v).inputs = s.inputs := rfl
@[simp] theorem State.setPc_draws (s : State) (v : Byte) : (s.setPc v).draws = s.draws := rfl
@[simp] theorem State.setPc_x (s : State) (v : Byte) (j : RegIndex) : (s.setPc v).x j = s.x j := rfl
@[simp] theorem State.setPc_read (s : State) (v : Byte) (d : Byte) : (s.setPc v).read d = s.read d := rfl

/-! `setTb`. -/

@[simp] theorem State.setTb_regs (s : State) (t : Second) : (s.setTb t).regs = s.regs := rfl
@[simp] theorem State.setTb_fl (s : State) (t : Second) : (s.setTb t).fl = s.fl := rfl
@[simp] theorem State.setTb_pc (s : State) (t : Second) : (s.setTb t).pc = s.pc := rfl
@[simp] theorem State.setTb_run (s : State) (t : Second) : (s.setTb t).run = s.run := rfl
@[simp] theorem State.setTb_cause (s : State) (t : Second) : (s.setTb t).cause = s.cause := rfl
@[simp] theorem State.setTb_errb (s : State) (t : Second) : (s.setTb t).errb = s.errb := rfl
@[simp] theorem State.setTb_tb (s : State) (t : Second) : (s.setTb t).tb = t := rfl
@[simp] theorem State.setTb_mem (s : State) (t : Second) : (s.setTb t).mem = s.mem := rfl
@[simp] theorem State.setTb_out (s : State) (t : Second) : (s.setTb t).out = s.out := rfl
@[simp] theorem State.setTb_params (s : State) (t : Second) : (s.setTb t).params = s.params := rfl
@[simp] theorem State.setTb_seconds (s : State) (t : Second) : (s.setTb t).seconds = s.seconds := rfl
@[simp] theorem State.setTb_inputs (s : State) (t : Second) : (s.setTb t).inputs = s.inputs := rfl
@[simp] theorem State.setTb_draws (s : State) (t : Second) : (s.setTb t).draws = s.draws := rfl
@[simp] theorem State.setTb_x (s : State) (t : Second) (j : RegIndex) : (s.setTb t).x j = s.x j := rfl
@[simp] theorem State.setTb_read (s : State) (t : Second) (d : Byte) : (s.setTb t).read d = s.read d := rfl

/-! `setSeconds`. -/

@[simp] theorem State.setSeconds_regs (s : State) (t : Second) : (s.setSeconds t).regs = s.regs := rfl
@[simp] theorem State.setSeconds_fl (s : State) (t : Second) : (s.setSeconds t).fl = s.fl := rfl
@[simp] theorem State.setSeconds_pc (s : State) (t : Second) : (s.setSeconds t).pc = s.pc := rfl
@[simp] theorem State.setSeconds_run (s : State) (t : Second) : (s.setSeconds t).run = s.run := rfl
@[simp] theorem State.setSeconds_cause (s : State) (t : Second) : (s.setSeconds t).cause = s.cause := rfl
@[simp] theorem State.setSeconds_errb (s : State) (t : Second) : (s.setSeconds t).errb = s.errb := rfl
@[simp] theorem State.setSeconds_tb (s : State) (t : Second) : (s.setSeconds t).tb = s.tb := rfl
@[simp] theorem State.setSeconds_mem (s : State) (t : Second) : (s.setSeconds t).mem = s.mem := rfl
@[simp] theorem State.setSeconds_out (s : State) (t : Second) : (s.setSeconds t).out = s.out := rfl
@[simp] theorem State.setSeconds_params (s : State) (t : Second) : (s.setSeconds t).params = s.params := rfl
@[simp] theorem State.setSeconds_seconds (s : State) (t : Second) : (s.setSeconds t).seconds = t := rfl
@[simp] theorem State.setSeconds_inputs (s : State) (t : Second) : (s.setSeconds t).inputs = s.inputs := rfl
@[simp] theorem State.setSeconds_draws (s : State) (t : Second) : (s.setSeconds t).draws = s.draws := rfl
@[simp] theorem State.setSeconds_x (s : State) (t : Second) (j : RegIndex) : (s.setSeconds t).x j = s.x j := rfl
@[simp] theorem State.setSeconds_read (s : State) (t : Second) (d : Byte) : (s.setSeconds t).read d = s.read d := rfl

/-! `store`. -/

@[simp] theorem State.store_regs (s : State) (a v : Byte) : (s.store a v).regs = s.regs := rfl
@[simp] theorem State.store_fl (s : State) (a v : Byte) : (s.store a v).fl = s.fl := rfl
@[simp] theorem State.store_pc (s : State) (a v : Byte) : (s.store a v).pc = s.pc := rfl
@[simp] theorem State.store_run (s : State) (a v : Byte) : (s.store a v).run = s.run := rfl
@[simp] theorem State.store_cause (s : State) (a v : Byte) : (s.store a v).cause = s.cause := rfl
@[simp] theorem State.store_errb (s : State) (a v : Byte) : (s.store a v).errb = s.errb := rfl
@[simp] theorem State.store_tb (s : State) (a v : Byte) : (s.store a v).tb = s.tb := rfl
@[simp] theorem State.store_mem (s : State) (a v : Byte) : (s.store a v).mem = s.mem.write a.toNat v := rfl
@[simp] theorem State.store_out (s : State) (a v : Byte) : (s.store a v).out = s.out := rfl
@[simp] theorem State.store_params (s : State) (a v : Byte) : (s.store a v).params = s.params := rfl
@[simp] theorem State.store_seconds (s : State) (a v : Byte) : (s.store a v).seconds = s.seconds := rfl
@[simp] theorem State.store_inputs (s : State) (a v : Byte) : (s.store a v).inputs = s.inputs := rfl
@[simp] theorem State.store_draws (s : State) (a v : Byte) : (s.store a v).draws = s.draws := rfl
@[simp] theorem State.store_x (s : State) (a v : Byte) (j : RegIndex) : (s.store a v).x j = s.x j := rfl

/-! `emit`. -/

@[simp] theorem State.emit_regs (s : State) (k : OutKind) (v : Byte) : (s.emit k v).regs = s.regs := rfl
@[simp] theorem State.emit_fl (s : State) (k : OutKind) (v : Byte) : (s.emit k v).fl = s.fl := rfl
@[simp] theorem State.emit_pc (s : State) (k : OutKind) (v : Byte) : (s.emit k v).pc = s.pc := rfl
@[simp] theorem State.emit_run (s : State) (k : OutKind) (v : Byte) : (s.emit k v).run = s.run := rfl
@[simp] theorem State.emit_cause (s : State) (k : OutKind) (v : Byte) : (s.emit k v).cause = s.cause := rfl
@[simp] theorem State.emit_errb (s : State) (k : OutKind) (v : Byte) : (s.emit k v).errb = s.errb := rfl
@[simp] theorem State.emit_tb (s : State) (k : OutKind) (v : Byte) : (s.emit k v).tb = s.tb := rfl
@[simp] theorem State.emit_mem (s : State) (k : OutKind) (v : Byte) : (s.emit k v).mem = s.mem := rfl
@[simp] theorem State.emit_out (s : State) (k : OutKind) (v : Byte) : (s.emit k v).out = s.out ++ [⟨k, v⟩] := rfl
@[simp] theorem State.emit_params (s : State) (k : OutKind) (v : Byte) : (s.emit k v).params = s.params := rfl
@[simp] theorem State.emit_seconds (s : State) (k : OutKind) (v : Byte) : (s.emit k v).seconds = s.seconds := rfl
@[simp] theorem State.emit_inputs (s : State) (k : OutKind) (v : Byte) : (s.emit k v).inputs = s.inputs := rfl
@[simp] theorem State.emit_draws (s : State) (k : OutKind) (v : Byte) : (s.emit k v).draws = s.draws := rfl
@[simp] theorem State.emit_x (s : State) (k : OutKind) (v : Byte) (j : RegIndex) : (s.emit k v).x j = s.x j := rfl
@[simp] theorem State.emit_read (s : State) (k : OutKind) (v : Byte) (d : Byte) : (s.emit k v).read d = s.read d := rfl

/-! `advance`. -/

@[simp] theorem State.advance_regs (s : State) (n : Byte) : (s.advance n).regs = s.regs := rfl
@[simp] theorem State.advance_fl (s : State) (n : Byte) : (s.advance n).fl = s.fl := rfl
@[simp] theorem State.advance_pc (s : State) (n : Byte) : (s.advance n).pc = add8 s.pc n := rfl
@[simp] theorem State.advance_run (s : State) (n : Byte) : (s.advance n).run = s.run := rfl
@[simp] theorem State.advance_cause (s : State) (n : Byte) : (s.advance n).cause = s.cause := rfl
@[simp] theorem State.advance_errb (s : State) (n : Byte) : (s.advance n).errb = s.errb := rfl
@[simp] theorem State.advance_tb (s : State) (n : Byte) : (s.advance n).tb = s.tb := rfl
@[simp] theorem State.advance_mem (s : State) (n : Byte) : (s.advance n).mem = s.mem := rfl
@[simp] theorem State.advance_out (s : State) (n : Byte) : (s.advance n).out = s.out := rfl
@[simp] theorem State.advance_params (s : State) (n : Byte) : (s.advance n).params = s.params := rfl
@[simp] theorem State.advance_seconds (s : State) (n : Byte) : (s.advance n).seconds = s.seconds := rfl
@[simp] theorem State.advance_inputs (s : State) (n : Byte) : (s.advance n).inputs = s.inputs := rfl
@[simp] theorem State.advance_draws (s : State) (n : Byte) : (s.advance n).draws = s.draws := rfl
@[simp] theorem State.advance_x (s : State) (n : Byte) (j : RegIndex) : (s.advance n).x j = s.x j := rfl
@[simp] theorem State.advance_read (s : State) (n : Byte) (d : Byte) : (s.advance n).read d = s.read d := rfl

/-! `stop`. -/

@[simp] theorem State.stop_regs (s : State) (c : Cause) (b : Byte) : (s.stop c b).regs = s.regs := rfl
@[simp] theorem State.stop_fl (s : State) (c : Cause) (b : Byte) : (s.stop c b).fl = s.fl := rfl
@[simp] theorem State.stop_pc (s : State) (c : Cause) (b : Byte) : (s.stop c b).pc = s.pc := rfl
@[simp] theorem State.stop_run (s : State) (c : Cause) (b : Byte) : (s.stop c b).run = false := rfl
@[simp] theorem State.stop_cause (s : State) (c : Cause) (b : Byte) : (s.stop c b).cause = c := rfl
@[simp] theorem State.stop_errb (s : State) (c : Cause) (b : Byte) : (s.stop c b).errb = b := rfl
@[simp] theorem State.stop_tb (s : State) (c : Cause) (b : Byte) : (s.stop c b).tb = s.tb := rfl
@[simp] theorem State.stop_mem (s : State) (c : Cause) (b : Byte) : (s.stop c b).mem = s.mem := rfl
@[simp] theorem State.stop_out (s : State) (c : Cause) (b : Byte) : (s.stop c b).out = s.out := rfl
@[simp] theorem State.stop_params (s : State) (c : Cause) (b : Byte) : (s.stop c b).params = s.params := rfl
@[simp] theorem State.stop_seconds (s : State) (c : Cause) (b : Byte) : (s.stop c b).seconds = s.seconds := rfl
@[simp] theorem State.stop_inputs (s : State) (c : Cause) (b : Byte) : (s.stop c b).inputs = s.inputs := rfl
@[simp] theorem State.stop_draws (s : State) (c : Cause) (b : Byte) : (s.stop c b).draws = s.draws := rfl
@[simp] theorem State.stop_x (s : State) (c : Cause) (b : Byte) (j : RegIndex) : (s.stop c b).x j = s.x j := rfl
@[simp] theorem State.stop_read (s : State) (c : Cause) (b : Byte) (d : Byte) : (s.stop c b).read d = s.read d := rfl

/-! `raise`. -/

@[simp] theorem State.raise_regs (s : State) (c : Cause) (b : Byte) : (s.raise c b).regs = s.regs := rfl
@[simp] theorem State.raise_fl (s : State) (c : Cause) (b : Byte) : (s.raise c b).fl = s.fl := rfl
@[simp] theorem State.raise_pc (s : State) (c : Cause) (b : Byte) : (s.raise c b).pc = s.pc := rfl
@[simp] theorem State.raise_run (s : State) (c : Cause) (b : Byte) : (s.raise c b).run = false := rfl
@[simp] theorem State.raise_cause (s : State) (c : Cause) (b : Byte) : (s.raise c b).cause = c := rfl
@[simp] theorem State.raise_errb (s : State) (c : Cause) (b : Byte) : (s.raise c b).errb = b := rfl
@[simp] theorem State.raise_tb (s : State) (c : Cause) (b : Byte) : (s.raise c b).tb = s.tb := rfl
@[simp] theorem State.raise_mem (s : State) (c : Cause) (b : Byte) : (s.raise c b).mem = s.mem := rfl
@[simp] theorem State.raise_out (s : State) (c : Cause) (b : Byte) : (s.raise c b).out = s.out := rfl
@[simp] theorem State.raise_params (s : State) (c : Cause) (b : Byte) : (s.raise c b).params = s.params := rfl
@[simp] theorem State.raise_seconds (s : State) (c : Cause) (b : Byte) : (s.raise c b).seconds = s.seconds := rfl
@[simp] theorem State.raise_inputs (s : State) (c : Cause) (b : Byte) : (s.raise c b).inputs = s.inputs := rfl
@[simp] theorem State.raise_draws (s : State) (c : Cause) (b : Byte) : (s.raise c b).draws = s.draws := rfl
@[simp] theorem State.raise_x (s : State) (c : Cause) (b : Byte) (j : RegIndex) : (s.raise c b).x j = s.x j := rfl
@[simp] theorem State.raise_read (s : State) (c : Cause) (b : Byte) (d : Byte) : (s.raise c b).read d = s.read d := rfl

/-! `push`. -/

@[simp] theorem State.push_fl (s : State) (v : Byte) : (s.push v).fl = s.fl := rfl
@[simp] theorem State.push_pc (s : State) (v : Byte) : (s.push v).pc = s.pc := rfl
@[simp] theorem State.push_run (s : State) (v : Byte) : (s.push v).run = s.run := rfl
@[simp] theorem State.push_cause (s : State) (v : Byte) : (s.push v).cause = s.cause := rfl
@[simp] theorem State.push_errb (s : State) (v : Byte) : (s.push v).errb = s.errb := rfl
@[simp] theorem State.push_tb (s : State) (v : Byte) : (s.push v).tb = s.tb := rfl
@[simp] theorem State.push_mem (s : State) (v : Byte) : (s.push v).mem = s.mem.write (sub8 (s.x 7) 1#8).toNat v := by
  simp [State.push, State.store, State.x, State.setX]
@[simp] theorem State.push_out (s : State) (v : Byte) : (s.push v).out = s.out := rfl
@[simp] theorem State.push_params (s : State) (v : Byte) : (s.push v).params = s.params := rfl
@[simp] theorem State.push_seconds (s : State) (v : Byte) : (s.push v).seconds = s.seconds := rfl
@[simp] theorem State.push_inputs (s : State) (v : Byte) : (s.push v).inputs = s.inputs := rfl
@[simp] theorem State.push_draws (s : State) (v : Byte) : (s.push v).draws = s.draws := rfl

/-! `drop`. -/

@[simp] theorem State.drop_fl (s : State) : (s.drop).fl = s.fl := rfl
@[simp] theorem State.drop_pc (s : State) : (s.drop).pc = s.pc := rfl
@[simp] theorem State.drop_run (s : State) : (s.drop).run = s.run := rfl
@[simp] theorem State.drop_cause (s : State) : (s.drop).cause = s.cause := rfl
@[simp] theorem State.drop_errb (s : State) : (s.drop).errb = s.errb := rfl
@[simp] theorem State.drop_tb (s : State) : (s.drop).tb = s.tb := rfl
@[simp] theorem State.drop_mem (s : State) : (s.drop).mem = s.mem := rfl
@[simp] theorem State.drop_out (s : State) : (s.drop).out = s.out := rfl
@[simp] theorem State.drop_params (s : State) : (s.drop).params = s.params := rfl
@[simp] theorem State.drop_seconds (s : State) : (s.drop).seconds = s.seconds := rfl
@[simp] theorem State.drop_inputs (s : State) : (s.drop).inputs = s.inputs := rfl
@[simp] theorem State.drop_draws (s : State) : (s.drop).draws = s.draws := rfl
@[simp] theorem State.drop_read (s : State) (d : Byte) : (s.drop).read d = s.read d := rfl

/-! `popX`. -/

@[simp] theorem State.popX_fl (s : State) (i : RegIndex) : (s.popX i).fl = s.fl := rfl
@[simp] theorem State.popX_pc (s : State) (i : RegIndex) : (s.popX i).pc = s.pc := rfl
@[simp] theorem State.popX_run (s : State) (i : RegIndex) : (s.popX i).run = s.run := rfl
@[simp] theorem State.popX_cause (s : State) (i : RegIndex) : (s.popX i).cause = s.cause := rfl
@[simp] theorem State.popX_errb (s : State) (i : RegIndex) : (s.popX i).errb = s.errb := rfl
@[simp] theorem State.popX_tb (s : State) (i : RegIndex) : (s.popX i).tb = s.tb := rfl
@[simp] theorem State.popX_mem (s : State) (i : RegIndex) : (s.popX i).mem = s.mem := rfl
@[simp] theorem State.popX_out (s : State) (i : RegIndex) : (s.popX i).out = s.out := rfl
@[simp] theorem State.popX_params (s : State) (i : RegIndex) : (s.popX i).params = s.params := rfl
@[simp] theorem State.popX_seconds (s : State) (i : RegIndex) : (s.popX i).seconds = s.seconds := rfl
@[simp] theorem State.popX_inputs (s : State) (i : RegIndex) : (s.popX i).inputs = s.inputs := rfl
@[simp] theorem State.popX_draws (s : State) (i : RegIndex) : (s.popX i).draws = s.draws := rfl
@[simp] theorem State.popX_read (s : State) (i : RegIndex) (d : Byte) : (s.popX i).read d = s.read d := rfl

/-! `popFl`. -/

@[simp] theorem State.popFl_fl (s : State) : (s.popFl).fl = s.top := rfl
@[simp] theorem State.popFl_pc (s : State) : (s.popFl).pc = s.pc := rfl
@[simp] theorem State.popFl_run (s : State) : (s.popFl).run = s.run := rfl
@[simp] theorem State.popFl_cause (s : State) : (s.popFl).cause = s.cause := rfl
@[simp] theorem State.popFl_errb (s : State) : (s.popFl).errb = s.errb := rfl
@[simp] theorem State.popFl_tb (s : State) : (s.popFl).tb = s.tb := rfl
@[simp] theorem State.popFl_mem (s : State) : (s.popFl).mem = s.mem := rfl
@[simp] theorem State.popFl_out (s : State) : (s.popFl).out = s.out := rfl
@[simp] theorem State.popFl_params (s : State) : (s.popFl).params = s.params := rfl
@[simp] theorem State.popFl_seconds (s : State) : (s.popFl).seconds = s.seconds := rfl
@[simp] theorem State.popFl_inputs (s : State) : (s.popFl).inputs = s.inputs := rfl
@[simp] theorem State.popFl_draws (s : State) : (s.popFl).draws = s.draws := rfl
@[simp] theorem State.popFl_read (s : State) (d : Byte) : (s.popFl).read d = s.read d := rfl

/-! `popPc`. -/

@[simp] theorem State.popPc_fl (s : State) : (s.popPc).fl = s.fl := rfl
@[simp] theorem State.popPc_pc (s : State) : (s.popPc).pc = s.top := rfl
@[simp] theorem State.popPc_run (s : State) : (s.popPc).run = s.run := rfl
@[simp] theorem State.popPc_cause (s : State) : (s.popPc).cause = s.cause := rfl
@[simp] theorem State.popPc_errb (s : State) : (s.popPc).errb = s.errb := rfl
@[simp] theorem State.popPc_tb (s : State) : (s.popPc).tb = s.tb := rfl
@[simp] theorem State.popPc_mem (s : State) : (s.popPc).mem = s.mem := rfl
@[simp] theorem State.popPc_out (s : State) : (s.popPc).out = s.out := rfl
@[simp] theorem State.popPc_params (s : State) : (s.popPc).params = s.params := rfl
@[simp] theorem State.popPc_seconds (s : State) : (s.popPc).seconds = s.seconds := rfl
@[simp] theorem State.popPc_inputs (s : State) : (s.popPc).inputs = s.inputs := rfl
@[simp] theorem State.popPc_draws (s : State) : (s.popPc).draws = s.draws := rfl
@[simp] theorem State.popPc_read (s : State) (d : Byte) : (s.popPc).read d = s.read d := rfl

/-! `startRun`. -/

@[simp] theorem State.startRun_regs (s : State) (t : Second) : (s.startRun t).regs = s.regs := rfl
@[simp] theorem State.startRun_fl (s : State) (t : Second) : (s.startRun t).fl = s.fl := rfl
@[simp] theorem State.startRun_pc (s : State) (t : Second) : (s.startRun t).pc = s.pc := rfl
@[simp] theorem State.startRun_run (s : State) (t : Second) : (s.startRun t).run = true := rfl
@[simp] theorem State.startRun_cause (s : State) (t : Second) : (s.startRun t).cause = .none := rfl
@[simp] theorem State.startRun_errb (s : State) (t : Second) : (s.startRun t).errb = 0x00#8 := rfl
@[simp] theorem State.startRun_tb (s : State) (t : Second) : (s.startRun t).tb = t := rfl
@[simp] theorem State.startRun_mem (s : State) (t : Second) : (s.startRun t).mem = s.mem := rfl
@[simp] theorem State.startRun_out (s : State) (t : Second) : (s.startRun t).out = s.out := rfl
@[simp] theorem State.startRun_params (s : State) (t : Second) : (s.startRun t).params = s.params := rfl
@[simp] theorem State.startRun_seconds (s : State) (t : Second) : (s.startRun t).seconds = t := rfl
@[simp] theorem State.startRun_inputs (s : State) (t : Second) : (s.startRun t).inputs = s.inputs := rfl
@[simp] theorem State.startRun_draws (s : State) (t : Second) : (s.startRun t).draws = s.draws := rfl
@[simp] theorem State.startRun_x (s : State) (t : Second) (j : RegIndex) : (s.startRun t).x j = s.x j := rfl
@[simp] theorem State.startRun_read (s : State) (t : Second) (d : Byte) : (s.startRun t).read d = s.read d := rfl

/-! `hostReset`. -/

@[simp] theorem State.hostReset_regs (s : State) : (s.hostReset).regs = State.reset.regs := rfl
@[simp] theorem State.hostReset_fl (s : State) : (s.hostReset).fl = 0x00#8 := rfl
@[simp] theorem State.hostReset_pc (s : State) : (s.hostReset).pc = 0x00#8 := rfl
@[simp] theorem State.hostReset_run (s : State) : (s.hostReset).run = false := rfl
@[simp] theorem State.hostReset_cause (s : State) : (s.hostReset).cause = .none := rfl
@[simp] theorem State.hostReset_errb (s : State) : (s.hostReset).errb = 0x00#8 := rfl
@[simp] theorem State.hostReset_tb (s : State) : (s.hostReset).tb = 0 := rfl
@[simp] theorem State.hostReset_mem (s : State) : (s.hostReset).mem = [] := rfl
@[simp] theorem State.hostReset_out (s : State) : (s.hostReset).out = [] := rfl
@[simp] theorem State.hostReset_params (s : State) : (s.hostReset).params = s.params := rfl
@[simp] theorem State.hostReset_seconds (s : State) : (s.hostReset).seconds = 0 := rfl
@[simp] theorem State.hostReset_inputs (s : State) : (s.hostReset).inputs = s.inputs := rfl
@[simp] theorem State.hostReset_draws (s : State) : (s.hostReset).draws = s.draws := rfl

/-! `setInputs`. -/

@[simp] theorem State.setInputs_regs (s : State) (rest : List HostInput) : (s.setInputs rest).regs = s.regs := rfl
@[simp] theorem State.setInputs_fl (s : State) (rest : List HostInput) : (s.setInputs rest).fl = s.fl := rfl
@[simp] theorem State.setInputs_pc (s : State) (rest : List HostInput) : (s.setInputs rest).pc = s.pc := rfl
@[simp] theorem State.setInputs_run (s : State) (rest : List HostInput) : (s.setInputs rest).run = s.run := rfl
@[simp] theorem State.setInputs_cause (s : State) (rest : List HostInput) : (s.setInputs rest).cause = s.cause := rfl
@[simp] theorem State.setInputs_errb (s : State) (rest : List HostInput) : (s.setInputs rest).errb = s.errb := rfl
@[simp] theorem State.setInputs_tb (s : State) (rest : List HostInput) : (s.setInputs rest).tb = s.tb := rfl
@[simp] theorem State.setInputs_mem (s : State) (rest : List HostInput) : (s.setInputs rest).mem = s.mem := rfl
@[simp] theorem State.setInputs_out (s : State) (rest : List HostInput) : (s.setInputs rest).out = s.out := rfl
@[simp] theorem State.setInputs_params (s : State) (rest : List HostInput) : (s.setInputs rest).params = s.params := rfl
@[simp] theorem State.setInputs_seconds (s : State) (rest : List HostInput) : (s.setInputs rest).seconds = s.seconds := rfl
@[simp] theorem State.setInputs_inputs (s : State) (rest : List HostInput) : (s.setInputs rest).inputs = rest := rfl
@[simp] theorem State.setInputs_draws (s : State) (rest : List HostInput) : (s.setInputs rest).draws = s.draws := rfl
@[simp] theorem State.setInputs_x (s : State) (rest : List HostInput) (j : RegIndex) : (s.setInputs rest).x j = s.x j := rfl
@[simp] theorem State.setInputs_read (s : State) (rest : List HostInput) (d : Byte) : (s.setInputs rest).read d = s.read d := rfl

/-! `drawn`. -/

@[simp] theorem State.drawn_regs (s : State) : (s.drawn).regs = s.regs := rfl
@[simp] theorem State.drawn_fl (s : State) : (s.drawn).fl = s.fl := rfl
@[simp] theorem State.drawn_pc (s : State) : (s.drawn).pc = s.pc := rfl
@[simp] theorem State.drawn_run (s : State) : (s.drawn).run = s.run := rfl
@[simp] theorem State.drawn_cause (s : State) : (s.drawn).cause = s.cause := rfl
@[simp] theorem State.drawn_errb (s : State) : (s.drawn).errb = s.errb := rfl
@[simp] theorem State.drawn_tb (s : State) : (s.drawn).tb = s.tb := rfl
@[simp] theorem State.drawn_mem (s : State) : (s.drawn).mem = s.mem := rfl
@[simp] theorem State.drawn_out (s : State) : (s.drawn).out = s.out := rfl
@[simp] theorem State.drawn_params (s : State) : (s.drawn).params = s.params := rfl
@[simp] theorem State.drawn_seconds (s : State) : (s.drawn).seconds = s.seconds := rfl
@[simp] theorem State.drawn_inputs (s : State) : (s.drawn).inputs = s.inputs := rfl
@[simp] theorem State.drawn_draws (s : State) : (s.drawn).draws = s.draws + 1 := rfl
@[simp] theorem State.drawn_x (s : State) (j : RegIndex) : (s.drawn).x j = s.x j := rfl
@[simp] theorem State.drawn_read (s : State) (d : Byte) : (s.drawn).read d = s.read d := rfl

/-- Idle is neither running nor stopped by a run (R32, R33). -/
theorem State.idle_iff (s : State) : s.idle = true ↔ s.run = false ∧ s.cause = .none := by simp [State.idle]

/-! The stack primitives (R120, R121) on registers and memory. -/

@[simp] theorem State.push_x (s : State) (v : Byte) (j : RegIndex) :
    (s.push v).x j = if 7 = j then sub8 (s.x 7) 1#8 else s.x j := by
  simp [State.push]

theorem State.push_read (s : State) (v d : Byte) :
    (s.push v).read d = if sub8 (s.x 7) 1#8 = d then v else s.read d := by
  simp [State.push, State.store_read]

/-- A push keeps memory's canonical form. -/
theorem State.push_wf (s : State) (v : Byte) (h : s.mem.wf = true) : (s.push v).mem.wf = true :=
  Memory.wf_write _ _ _ h

@[simp] theorem State.drop_x (s : State) (j : RegIndex) :
    s.drop.x j = if 7 = j then add8 (s.x 7) 1#8 else s.x j := by
  simp [State.drop]

@[simp] theorem State.popX_x (s : State) (i j : RegIndex) :
    (s.popX i).x j = if i = j then s.top else if 7 = j then add8 (s.x 7) 1#8 else s.x j := by
  simp [State.popX]

@[simp] theorem State.popFl_x (s : State) (j : RegIndex) :
    s.popFl.x j = if 7 = j then add8 (s.x 7) 1#8 else s.x j := by
  simp [State.popFl]

@[simp] theorem State.popPc_x (s : State) (j : RegIndex) :
    s.popPc.x j = if 7 = j then add8 (s.x 7) 1#8 else s.x j := by
  simp [State.popPc]

end Sys2Proof.Machine
end

