-- ==== Sys2Proof/Laws/Interrupt.lean ====
section
/-! SUPPORT. What interrupt entry (R164), its return (R141) and the timer's phase (R159) leave alone, and everything
the timer's phase can do. -/

namespace Sys2Proof.Machine

/-- Everything phase 1 can do (R159). -/
theorem State.timerPhase_cases (s : State) (t : Second) :
    (advancedByOne s.tb t = true ∧
      s.timerPhase t = (s.setSeconds t).setX 6 (s.x 6 ||| bitMask s.params.timerBit)) ∨
    (advancedByOne s.tb t = false ∧ s.timerPhase t = s.setSeconds t) := by
  cases h : advancedByOne s.tb t <;> simp [State.timerPhase, h]

/-- Phase 1 changes no register but `x[6]`. -/
theorem State.timerPhase_x_other (s : State) (t : Second) (r : RegIndex) (h : r ≠ 6) :
    (s.timerPhase t).x r = s.x r := by
  rcases s.timerPhase_cases t with ⟨-, e⟩ | ⟨-, e⟩ <;> simp [e, Ne.symm h]

@[simp] theorem State.timerPhase_fl (s : State) (t : Second) : (s.timerPhase t).fl = s.fl := by
  rcases s.timerPhase_cases t with ⟨-, e⟩ | ⟨-, e⟩ <;> simp [e]

@[simp] theorem State.timerPhase_pc (s : State) (t : Second) : (s.timerPhase t).pc = s.pc := by
  rcases s.timerPhase_cases t with ⟨-, e⟩ | ⟨-, e⟩ <;> simp [e]

@[simp] theorem State.timerPhase_run (s : State) (t : Second) : (s.timerPhase t).run = s.run := by
  rcases s.timerPhase_cases t with ⟨-, e⟩ | ⟨-, e⟩ <;> simp [e]

@[simp] theorem State.timerPhase_cause (s : State) (t : Second) : (s.timerPhase t).cause = s.cause := by
  rcases s.timerPhase_cases t with ⟨-, e⟩ | ⟨-, e⟩ <;> simp [e]

@[simp] theorem State.timerPhase_errb (s : State) (t : Second) : (s.timerPhase t).errb = s.errb := by
  rcases s.timerPhase_cases t with ⟨-, e⟩ | ⟨-, e⟩ <;> simp [e]

@[simp] theorem State.timerPhase_tb (s : State) (t : Second) : (s.timerPhase t).tb = s.tb := by
  rcases s.timerPhase_cases t with ⟨-, e⟩ | ⟨-, e⟩ <;> simp [e]

@[simp] theorem State.timerPhase_mem (s : State) (t : Second) : (s.timerPhase t).mem = s.mem := by
  rcases s.timerPhase_cases t with ⟨-, e⟩ | ⟨-, e⟩ <;> simp [e]

@[simp] theorem State.timerPhase_out (s : State) (t : Second) : (s.timerPhase t).out = s.out := by
  rcases s.timerPhase_cases t with ⟨-, e⟩ | ⟨-, e⟩ <;> simp [e]

@[simp] theorem State.timerPhase_params (s : State) (t : Second) : (s.timerPhase t).params = s.params := by
  rcases s.timerPhase_cases t with ⟨-, e⟩ | ⟨-, e⟩ <;> simp [e]

@[simp] theorem State.timerPhase_inputs (s : State) (t : Second) : (s.timerPhase t).inputs = s.inputs := by
  rcases s.timerPhase_cases t with ⟨-, e⟩ | ⟨-, e⟩ <;> simp [e]

@[simp] theorem State.timerPhase_draws (s : State) (t : Second) : (s.timerPhase t).draws = s.draws := by
  rcases s.timerPhase_cases t with ⟨-, e⟩ | ⟨-, e⟩ <;> simp [e]

@[simp] theorem State.timerPhase_seconds (s : State) (t : Second) : (s.timerPhase t).seconds = t := by
  rcases s.timerPhase_cases t with ⟨-, e⟩ | ⟨-, e⟩ <;> simp [e]

@[simp] theorem State.timerPhase_read (s : State) (t : Second) (d : Byte) : (s.timerPhase t).read d = s.read d := by
  simp [State.read]

/-! Interrupt entry and return: the fields they do not write. -/

@[simp] theorem State.interruptEntry_fl (s : State) : s.interruptEntry.fl = s.fl := rfl
@[simp] theorem State.interruptEntry_run (s : State) : s.interruptEntry.run = s.run := rfl
@[simp] theorem State.interruptEntry_cause (s : State) : s.interruptEntry.cause = s.cause := rfl
@[simp] theorem State.interruptEntry_errb (s : State) : s.interruptEntry.errb = s.errb := rfl
@[simp] theorem State.interruptEntry_tb (s : State) : s.interruptEntry.tb = s.tb := rfl
@[simp] theorem State.interruptEntry_out (s : State) : s.interruptEntry.out = s.out := rfl
@[simp] theorem State.interruptEntry_params (s : State) : s.interruptEntry.params = s.params := rfl
@[simp] theorem State.interruptEntry_seconds (s : State) : s.interruptEntry.seconds = s.seconds := rfl
@[simp] theorem State.interruptEntry_inputs (s : State) : s.interruptEntry.inputs = s.inputs := rfl
@[simp] theorem State.interruptEntry_draws (s : State) : s.interruptEntry.draws = s.draws := rfl

/-- Entry clears `x[6]`, lowers `x[7]` by nine and changes no other register (R164). -/
theorem State.interruptEntry_x (s : State) (r : RegIndex) :
    s.interruptEntry.x r =
      if r = 6 then 0x00#8 else if r = 7 then s.x 7 - 9#8 else s.x r := by
  fin_cases r <;> simp [State.interruptEntry, State.pushX, BitVec.sub_eq_add_neg, BitVec.add_assoc]

/-- Entry keeps memory's canonical form. -/
theorem State.interruptEntry_wf (s : State) (h : s.mem.wf = true) : s.interruptEntry.mem.wf = true := by
  simp only [State.interruptEntry, State.pushX, State.setPc_mem]
  repeat apply State.push_wf
  exact h

/-- Which bits a mask of one bit has. -/
theorem bitMask_getLsbD (i k : Fin 8) : (bitMask i).getLsbD k.val = decide (k = i) := by
  revert i k; decide

@[simp] theorem State.interruptReturn_run (s : State) : s.interruptReturn.run = s.run := by simp [State.interruptReturn]
@[simp] theorem State.interruptReturn_cause (s : State) : s.interruptReturn.cause = s.cause := by simp [State.interruptReturn]
@[simp] theorem State.interruptReturn_errb (s : State) : s.interruptReturn.errb = s.errb := by simp [State.interruptReturn]
@[simp] theorem State.interruptReturn_mem (s : State) : s.interruptReturn.mem = s.mem := by simp [State.interruptReturn]
@[simp] theorem State.interruptReturn_out (s : State) : s.interruptReturn.out = s.out := by simp [State.interruptReturn]
@[simp] theorem State.interruptReturn_params (s : State) : s.interruptReturn.params = s.params := by simp [State.interruptReturn]
@[simp] theorem State.interruptReturn_seconds (s : State) : s.interruptReturn.seconds = s.seconds := by simp [State.interruptReturn]
@[simp] theorem State.interruptReturn_inputs (s : State) : s.interruptReturn.inputs = s.inputs := by simp [State.interruptReturn]
@[simp] theorem State.interruptReturn_draws (s : State) : s.interruptReturn.draws = s.draws := by simp [State.interruptReturn]
@[simp] theorem State.interruptReturn_tb (s : State) : s.interruptReturn.tb = s.seconds := by simp [State.interruptReturn]

end Sys2Proof.Machine
end

