-- ==== Sys2Proof/Laws/Operands.lean ====
section
/-! SUPPORT. The register-index check (R75, R97): when it gives an index, and everything the two operand forms can
do. -/

namespace Sys2Proof.Machine

theorem regIdx_of_lt (v : Byte) (h : v.toNat < 8) : regIdx v = some ⟨v.toNat, h⟩ := by
  simp [regIdx, h]

theorem regIdx_of_ge (v : Byte) (h : 8 ≤ v.toNat) : regIdx v = none := by
  simp [regIdx, Nat.not_lt.mpr h]

theorem regIdx_eq_some (v : Byte) (i : RegIndex) : regIdx v = some i ↔ v.toNat = i.val := by
  unfold regIdx
  split
  · simp [Fin.ext_iff]
  · next h => simp; omega

theorem regIdx_eq_none (v : Byte) : regIdx v = none ↔ isRegIndex v = false := by
  unfold regIdx isRegIndex
  split <;> simp_all

/-- Everything an instruction of one register operand can do. -/
theorem withReg_cases {a : Byte} {s : State} {body : RegIndex → State} {t : State}
    (h : withReg a s body = .next t) :
    (∃ i, regIdx a = some i ∧ t = body i) ∨ (regIdx a = none ∧ t = s.raise .addressOutOfRange a) := by
  unfold withReg at h
  split at h
  · next hr => cases h; exact Or.inr ⟨hr, rfl⟩
  · next i hr => cases h; exact Or.inl ⟨i, hr, rfl⟩

/-- Everything an instruction of two register operands can do. -/
theorem withRegs_cases {a b : Byte} {s : State} {body : RegIndex → RegIndex → State} {t : State}
    (h : withRegs a b s body = .next t) :
    (∃ i j, regIdx a = some i ∧ regIdx b = some j ∧ t = body i j) ∨
    (regIdx a = none ∧ t = s.raise .addressOutOfRange a) ∨
    (∃ i, regIdx a = some i ∧ regIdx b = none ∧ t = s.raise .addressOutOfRange b) := by
  unfold withRegs at h
  split at h
  · next hr => cases h; exact Or.inr (Or.inl ⟨hr, rfl⟩)
  · next i hr =>
    split at h
    · next hb => cases h; exact Or.inr (Or.inr ⟨i, hr, hb, rfl⟩)
    · next j hb => cases h; exact Or.inl ⟨i, j, hr, hb, rfl⟩

/-- An instruction of one register operand always answers a next state. -/
theorem withReg_next (a : Byte) (s : State) (body : RegIndex → State) : ∃ t, withReg a s body = .next t := by
  unfold withReg
  split <;> exact ⟨_, rfl⟩

/-- An instruction of two register operands always answers a next state. -/
theorem withRegs_next (a b : Byte) (s : State) (body : RegIndex → RegIndex → State) :
    ∃ t, withRegs a b s body = .next t := by
  unfold withRegs
  split
  · exact ⟨_, rfl⟩
  · split <;> exact ⟨_, rfl⟩

end Sys2Proof.Machine
end

