-- ==== Sys2Proof/Laws/Cycle.lean ====
section
/-! SUPPORT. Everything the shared operations of phase 6, a cycle, a host input and a step can do, and that every
instruction answers a next state. -/

namespace Sys2Proof.Machine

/-- Everything an ALU instruction can do (R110 to R113, R153). -/
theorem aluFinish_cases (i : RegIndex) (r : AluResult) (s : State) :
    (∃ v, r = .value v ∧ aluFinish i r s = (s.setX i v).advance 3#8) ∨
    (∃ v, r = .flags v ∧ aluFinish i r s = (s.setFl v).advance 3#8) ∨
    (r = .unsupported ∧ aluFinish i r s = s.raise .unsupportedOperation 0x00#8) := by
  cases r <;> simp [aluFinish]

/-- A conditional jump changes `PC` alone. -/
theorem jumpIf_cases (taken : Bool) (i : RegIndex) (s : State) :
    (taken = true ∧ jumpIf taken i s = s.setPc (s.x i)) ∨ (taken = false ∧ jumpIf taken i s = s.advance 2#8) := by
  cases taken <;> simp [jumpIf]

/-- The three bytes a compare can write (R113). -/
theorem compareFlags_cases (u v : Byte) :
    (u.toNat = v.toNat ∧ compareFlags u v = 0x01#8) ∨ (v.toNat < u.toNat ∧ compareFlags u v = 0x02#8) ∨
    (u.toNat < v.toNat ∧ compareFlags u v = 0x04#8) := by
  unfold compareFlags
  split
  · next h => exact Or.inl ⟨h, rfl⟩
  · split
    · next h => exact Or.inr (Or.inl ⟨h, rfl⟩)
    · next h h' => exact Or.inr (Or.inr ⟨by omega, rfl⟩)

/-- Every instruction answers a next state: none faults and none is refused. -/
theorem exec_next (i : Instr) (s : State) : ∃ t, exec i s = .next t := by
  cases i with
  | hlt => exact ⟨_, rfl⟩
  | ret => exact ⟨_, rfl⟩
  | iret => exact ⟨_, rfl⟩
  | ldi a b => exact withReg_next ..
  | prn a => exact withReg_next ..
  | pra a => exact withReg_next ..
  | push a => exact withReg_next ..
  | pop a => exact withReg_next ..
  | call a => exact withReg_next ..
  | jmp a => exact withReg_next ..
  | jeq a => exact withReg_next ..
  | jne a => exact withReg_next ..
  | add a b => exact withRegs_next ..
  | mul a b => exact withRegs_next ..
  | cmp a b => exact withRegs_next ..
  | st a b => exact withRegs_next ..

/-- Everything one cycle can do (R91): an interrupt entry, an unknown opcode, or one instruction. -/
theorem State.cycle_cases (s : State) (t : Second) :
    ((s.timerPhase t).interruptPending = true ∧ s.cycle t = .next (s.timerPhase t).interruptEntry) ∨
    ((s.timerPhase t).interruptPending = false ∧ (s.timerPhase t).fetch = none ∧
      s.cycle t = .next ((s.timerPhase t).raise .unknownOpcode (s.read s.pc))) ∨
    (∃ i, (s.timerPhase t).interruptPending = false ∧ (s.timerPhase t).fetch = some i ∧
      s.cycle t = exec i (s.timerPhase t)) := by
  unfold State.cycle
  cases hp : (s.timerPhase t).interruptPending
  · cases hf : (s.timerPhase t).fetch <;> simp [hp, hf]
  · simp [hp]

/-- The timer's phase does not touch what a fetch reads (R92, R94). -/
theorem State.timerPhase_fetch (s : State) (t : Second) : (s.timerPhase t).fetch = s.fetch := by
  have h : (s.timerPhase t).operandAt = s.operandAt := by
    funext k; simp [State.operandAt]
  simp [State.fetch, h]

/-- A cycle always answers a next state. -/
theorem State.cycle_next (s : State) (t : Second) : ∃ u, s.cycle t = .next u := by
  rcases s.cycle_cases t with ⟨-, h⟩ | ⟨-, -, h⟩ | ⟨i, -, -, h⟩
  · exact ⟨_, h⟩
  · exact ⟨_, h⟩
  · rw [h]; exact exec_next _ _

/-- Everything one entry of the host's script can do (R190 to R192). -/
theorem State.hostAct_cases (s : State) (h : HostInput) :
    (∃ t, h = .cycle t ∧ s.run = true ∧ s.hostAct h = s.cycle t) ∨
    (∃ t, h = .cycle t ∧ s.run = false ∧ s.hostAct h = .next s) ∨
    (h = .reset ∧ s.hostAct h = .next s.hostReset) ∨
    (∃ a v, h = .load a v ∧ s.idle = true ∧ s.hostAct h = .next (s.store a v)) ∨
    (∃ a v, h = .load a v ∧ s.idle = false ∧ s.hostAct h = .fault .loaderNotIdle) ∨
    (∃ t, h = .run t ∧ s.idle = true ∧ s.hostAct h = .next (s.startRun t)) ∨
    (∃ t, h = .run t ∧ s.idle = false ∧ s.hostAct h = .next s) := by
  cases h with
  | cycle t => cases hr : s.run <;> simp [State.hostAct, hr]
  | reset => simp [State.hostAct]
  | load a v => cases hi : s.idle <;> simp [State.hostAct, State.hostLoad, hi]
  | run t => cases hi : s.idle <;> simp [State.hostAct, State.hostRun, hi]

/-- Everything one step can do: the script's next entry, or, when the script is used up, a cycle with a free value of
`T` while running and nothing otherwise. -/
theorem step_cases (s : State) :
    (∃ h rest, s.inputs = h :: rest ∧ step s = (s.setInputs rest).hostAct h) ∨
    (s.inputs = [] ∧ s.run = true ∧
      step s = s.drawn.cycle (Config.secondsInput s.draws)) ∨
    (s.inputs = [] ∧ s.run = false ∧ step s = .next s) := by
  unfold step State.nextStep
  cases hi : s.inputs with
  | cons h rest => simp
  | nil => cases hr : s.run <;> simp

/-- A step of a running machine whose script's next entry is a cycle. -/
theorem step_cycle {s : State} {t : Second} {rest : List HostInput} (hi : s.inputs = .cycle t :: rest)
    (hr : s.run = true) : step s = (s.setInputs rest).cycle t := by
  simp [step, State.nextStep, hi, State.hostAct, hr]

/-- A step that begins a cycle is that cycle, and its phase 1 gives `u`. -/
theorem step_of_beginsCycle {s u : State} (h : s.BeginsCycle u) :
    ∃ (w : State) (t : Second), step s = w.cycle t ∧ u = w.timerPhase t := by
  obtain ⟨hr, ⟨t, rest, hi, hu⟩ | ⟨hi, hu⟩⟩ := h
  · exact ⟨_, _, step_cycle hi hr, hu⟩
  · exact ⟨_, _, by simp [step, State.nextStep, hi, hr], hu⟩

/-- Phase 1 of a cycle touches no byte, no `PC` and no fetched instruction. -/
theorem beginsCycle_same {s u : State} (h : s.BeginsCycle u) :
    (∀ d, u.read d = s.read d) ∧ u.pc = s.pc ∧ u.fetch = s.fetch := by
  obtain ⟨-, ⟨t, rest, -, rfl⟩ | ⟨-, rfl⟩⟩ := h <;> exact ⟨by simp, by simp, State.timerPhase_fetch _ _⟩

/-- Another script leaves the fetched instruction alone. -/
@[simp] theorem State.setInputs_fetch (s : State) (rest : List HostInput) : (s.setInputs rest).fetch = s.fetch := rfl

/-- A draw leaves the fetched instruction alone. -/
@[simp] theorem State.drawn_fetch (s : State) : s.drawn.fetch = s.fetch := rfl

end Sys2Proof.Machine
end

