-- ==== Sys2Proof/Laws/Decode.lean ====
section
/-! SUPPORT. The dispatch table lookup: a row found is a row of the table, and no two rows have one byte (R78). -/

namespace Sys2Proof

theorem lookupIn_mem {op : Byte} {e : Entry} {rows : List (Byte × Entry)} (h : lookupIn op rows = some e) :
    (op, e) ∈ rows := by
  induction rows with
  | nil => simp [lookupIn] at h
  | cons r rest ih =>
    obtain ⟨k, f⟩ := r
    simp only [lookupIn] at h
    split at h
    · next hk => cases h; simp [hk]
    · exact List.mem_cons_of_mem _ (ih h)

theorem lookup_mem {op : Byte} {e : Entry} (h : lookup op = some e) : (op, e) ∈ dispatchTable := lookupIn_mem h

theorem lookupIn_eq_none {op : Byte} {rows : List (Byte × Entry)} :
    lookupIn op rows = none ↔ op ∉ rows.map Prod.fst := by
  induction rows with
  | nil => simp [lookupIn]
  | cons r rest ih =>
    obtain ⟨k, f⟩ := r
    by_cases hk : op = k <;> simp [lookupIn, hk, ih]

/-- The table's opcode bytes are pairwise distinct (R78, R86). -/
theorem dispatchTable_distinct : (dispatchTable.map Prod.fst).Pairwise (· ≠ ·) := by decide

end Sys2Proof
end

