-- ==== Sys2Proof/Laws/PerInstr.lean ====
section
/-! SUPPORT. Facts about every instruction as syntax, one lemma per constructor. -/

/-- An instruction's length is one byte and the operand count its opcode's two high bits state (R71). -/
def Sys2Proof.Laws.Length.Statement (i : Sys2Proof.Instr) : Prop :=
  ∃ op rest, Sys2Proof.encode i = op :: rest ∧ rest.length = Sys2Proof.operandBits op

namespace Sys2Proof.Laws

theorem Length.ldi (a b : Byte) : Length.Statement (.ldi a b) := ⟨_, _, rfl, by simp [operandBits]⟩
theorem Length.prn (a : Byte) : Length.Statement (.prn a) := ⟨_, _, rfl, rfl⟩
theorem Length.pra (a : Byte) : Length.Statement (.pra a) := ⟨_, _, rfl, rfl⟩
theorem Length.hlt : Length.Statement .hlt := ⟨_, _, rfl, rfl⟩
theorem Length.add (a b : Byte) : Length.Statement (.add a b) := ⟨_, _, rfl, by simp [operandBits]⟩
theorem Length.mul (a b : Byte) : Length.Statement (.mul a b) := ⟨_, _, rfl, by simp [operandBits]⟩
theorem Length.cmp (a b : Byte) : Length.Statement (.cmp a b) := ⟨_, _, rfl, by simp [operandBits]⟩
theorem Length.push (a : Byte) : Length.Statement (.push a) := ⟨_, _, rfl, rfl⟩
theorem Length.pop (a : Byte) : Length.Statement (.pop a) := ⟨_, _, rfl, rfl⟩
theorem Length.call (a : Byte) : Length.Statement (.call a) := ⟨_, _, rfl, rfl⟩
theorem Length.ret : Length.Statement .ret := ⟨_, _, rfl, rfl⟩
theorem Length.jmp (a : Byte) : Length.Statement (.jmp a) := ⟨_, _, rfl, rfl⟩
theorem Length.jeq (a : Byte) : Length.Statement (.jeq a) := ⟨_, _, rfl, rfl⟩
theorem Length.jne (a : Byte) : Length.Statement (.jne a) := ⟨_, _, rfl, rfl⟩
theorem Length.st (a b : Byte) : Length.Statement (.st a b) := ⟨_, _, rfl, by simp [operandBits]⟩
theorem Length.iret : Length.Statement .iret := ⟨_, _, rfl, rfl⟩

end Sys2Proof.Laws
end

