-- ==== Sys2Proof/Tests/Slice0.lean ====
section
/-! SUPPORT. Tests, with expected results from spec/30_encoding.md R77 and spec/95_test_vectors.md (the vector is named
in each comment), and for every statement with hypotheses a witness that meets them. -/

namespace Sys2Proof.Machine.Tests

/-- A running machine with the given registers, bytes from `pc` up, and other cells. The host lets one cycle pass with
`T = TB = 0`, which is no tick. -/
def running (pc : Byte) (regs : List (RegIndex × Byte)) (code : List Byte) (cells : List (Byte × Byte)) : State :=
  let s := { State.reset with pc := pc, run := true, inputs := [.cycle 0] }
  let s := regs.foldl (fun t p => t.setX p.1 p.2) s
  let s := s.storeAtPc code
  cells.foldl (fun t p => t.store p.1 p.2) s

/-- What is seen of the state one step later, when the step answers a next state. -/
def after {α : Type} (s : State) (see : State → α) : Option α :=
  match step s with
  | .next t => some (see t)
  | .fault _ => none
  | .refused _ => none

/-! Well-formedness: a term the check accepts and a term it refuses, for each register operand. -/

theorem test_wf_ldi : (Instr.ldi 7 0xFF).wellFormed = true ∧ (Instr.ldi 8 0x00).wellFormed = false := by decide
theorem test_wf_prn : (Instr.prn 7).wellFormed = true ∧ (Instr.prn 8).wellFormed = false := by decide
theorem test_wf_pra : (Instr.pra 0).wellFormed = true ∧ (Instr.pra 0x80).wellFormed = false := by decide
theorem test_wf_add : (Instr.add 7 7).wellFormed = true ∧ (Instr.add 8 0).wellFormed = false ∧
    (Instr.add 0 8).wellFormed = false := by decide
theorem test_wf_mul : (Instr.mul 0 1).wellFormed = true ∧ (Instr.mul 9 0).wellFormed = false ∧
    (Instr.mul 0 0xFF).wellFormed = false := by decide
theorem test_wf_cmp : (Instr.cmp 4 4).wellFormed = true ∧ (Instr.cmp 8 4).wellFormed = false ∧
    (Instr.cmp 4 8).wellFormed = false := by decide
theorem test_wf_st : (Instr.st 0 7).wellFormed = true ∧ (Instr.st 8 7).wellFormed = false ∧
    (Instr.st 0 9).wellFormed = false := by decide
theorem test_wf_stack : (Instr.push 7).wellFormed = true ∧ (Instr.push 8).wellFormed = false ∧
    (Instr.pop 7).wellFormed = true ∧ (Instr.pop 0x10).wellFormed = false := by decide
theorem test_wf_transfer : (Instr.call 1).wellFormed = true ∧ (Instr.call 8).wellFormed = false ∧
    (Instr.jmp 1).wellFormed = true ∧ (Instr.jmp 8).wellFormed = false ∧
    (Instr.jeq 1).wellFormed = true ∧ (Instr.jeq 8).wellFormed = false ∧
    (Instr.jne 1).wellFormed = true ∧ (Instr.jne 0xFF).wellFormed = false := by decide
theorem test_wf_no_operand : Instr.hlt.wellFormed = true ∧ Instr.ret.wellFormed = true ∧
    Instr.iret.wellFormed = true := by decide

/-! Decoding: each instruction's word, bit by bit from R77, then its operand bytes. -/

theorem test_decode_ldi : decode [0b10000010#8, 0b00000111#8, 0b10000000#8] = .ok (.ldi 7 0x80, []) := by decide
theorem test_decode_prn : decode [0b01000111#8, 0b00000011#8] = .ok (.prn 3, []) := by decide
theorem test_decode_pra : decode [0b01001000#8, 0b00000001#8, 0xAA#8] = .ok (.pra 1, [0xAA#8]) := by decide
theorem test_decode_hlt : decode [0b00000001#8, 0x05#8] = .ok (.hlt, [0x05#8]) := by decide
theorem test_decode_add : decode [0b10100000#8, 0b00000010#8, 0b00000110#8] = .ok (.add 2 6, []) := by decide
theorem test_decode_mul : decode [0b10100010#8, 0b00000101#8, 0b00000011#8] = .ok (.mul 5 3, []) := by decide
theorem test_decode_cmp : decode [0b10100111#8, 0b00000001#8, 0b00001001#8] = .ok (.cmp 1 9, []) := by decide
theorem test_decode_push : decode [0b01000101#8, 0b00000111#8] = .ok (.push 7, []) := by decide
theorem test_decode_pop : decode [0b01000110#8, 0b00000101#8] = .ok (.pop 5, []) := by decide
theorem test_decode_call : decode [0b01010000#8, 0b00000001#8] = .ok (.call 1, []) := by decide
theorem test_decode_ret : decode [0b00010001#8] = .ok (.ret, []) := by decide
theorem test_decode_jmp : decode [0b01010100#8, 0b00000010#8] = .ok (.jmp 2, []) := by decide
theorem test_decode_jeq : decode [0b01010101#8, 0b00000010#8] = .ok (.jeq 2, []) := by decide
theorem test_decode_jne : decode [0b01010110#8, 0b00000010#8] = .ok (.jne 2, []) := by decide
theorem test_decode_st : decode [0b10000100#8, 0b00000010#8, 0b00000001#8] = .ok (.st 2 1, []) := by decide
theorem test_decode_iret : decode [0b00010011#8] = .ok (.iret, []) := by decide

/-- R79, F4: neighbours of real opcodes have no row. -/
theorem test_decode_neighbours :
    [0xA1#8, 0xA8#8, 0x02#8, 0x12#8, 0x44#8, 0x49#8, 0x51#8, 0x57#8, 0x00#8, 0xFF#8, 0x83#8].all
      (fun op => decode [op, 0, 0] = .error (.unknownOpcode op)) = true := by decide

/-- A list that ends inside an instruction is no instruction. -/
theorem test_decode_truncated :
    decode [] = .error .truncated ∧ decode [0x82#8, 0x00#8] = .error .truncated ∧
    decode [0x47#8] = .error .truncated := by decide

/-- The table's numbering: bit 0 is the least significant bit of the first byte. -/
theorem test_table_word :
    decodeTableWord 24 0x080082 = some (.ldi 0 8) ∧ decodeTableWord 8 0x13 = some .iret ∧
    decodeTableWord 16 0x0147 = some (.prn 1) ∧ decodeTableWord 8 0x147 = some (.prn 0) ∧
    decodeTableWord 8 0x00 = none := by decide

/-- From reset, the placed instruction is what the very next step runs. -/
theorem test_fetch_word :
    after (State.reset.withFetchWord 24 0x080082) (fun t => (t.x 0, t.pc, t.run)) = some (0x08#8, 0x03#8, true) ∧
    after (State.reset.withFetchWord 8 0x01) (fun t => (t.cause, t.pc)) = some (.hlt, 0x01#8) := by decide

/-! One step each. -/

/-- M1. -/
theorem test_ldi_stack_pointer :
    after (running 0x10 [] [0x82, 7, 0x80] []) (fun t => (t.x 7, t.pc)) = some (0x80#8, 0x13#8) := by decide
/-- M4: operand fetch and `PC` wrap. -/
theorem test_ldi_wraps :
    after (running 0xFE [] [0x82, 3, 0x9A] []) (fun t => (t.x 3, t.pc, t.read 0x00)) =
      some (0x9A#8, 0x01#8, 0x9A#8) := by decide
/-- M10: the store overwrites its own operand byte after it was used. -/
theorem test_st_own_operand :
    after (running 0x20 [(0, 0x21), (1, 0x07)] [0x84, 0, 1] []) (fun t => (t.read 0x21, t.pc)) =
      some (0x07#8, 0x23#8) := by decide
/-- M12: the first bad operand is reported. -/
theorem test_st_first_bad_operand :
    after (running 0x00 [] [0x84, 8, 9] []) (fun t => (t.run, t.cause, t.errb, t.pc)) =
      some (false, .addressOutOfRange, 0x08#8, 0x00#8) := by decide
/-- O2. -/
theorem test_prn_unsigned :
    after (running 0x00 [(3, 0xFF)] [0x47, 3] []) (fun t => (t.out, t.pc)) =
      some ([⟨.num, 0xFF#8⟩], 0x02#8) := by decide
/-- O7: no masking of a character. -/
theorem test_pra_high_code :
    after (running 0x00 [(1, 0xE9)] [0x48, 1] []) (fun t => (t.out, t.pc)) =
      some ([⟨.chr, 0xE9#8⟩], 0x02#8) := by decide
/-- S2. -/
theorem test_add_wraps :
    after (running 0x10 [(0, 0xC8), (1, 0x64)] [0xA0, 0, 1] []) (fun t => (t.x 0, t.x 1, t.fl, t.pc)) =
      some (0x2C#8, 0x64#8, 0x00#8, 0x13#8) := by decide
/-- A4: a register added to itself. -/
theorem test_add_self :
    after (running 0x00 [(2, 0x81)] [0xA0, 2, 2] []) (fun t => t.x 2) = some 0x02#8 := by decide
/-- A11. -/
theorem test_mul_wraps :
    after (running 0x00 [(0, 0xFF), (1, 0xFF)] [0xA2, 0, 1] []) (fun t => (t.x 0, t.x 1)) =
      some (0x01#8, 0xFF#8) := by decide
/-- A12. -/
theorem test_mul_destination :
    after (running 0x00 [(0, 0x0C), (1, 0x0B)] [0xA2, 0, 1] []) (fun t => (t.x 0, t.x 1)) =
      some (0x84#8, 0x0B#8) := by decide
/-- A20: the comparison is unsigned. -/
theorem test_cmp_unsigned :
    after (running 0x00 [(0, 0x80), (1, 0x7F)] [0xA7, 0, 1] []) (fun t => (t.fl, t.pc)) =
      some (0x02#8, 0x03#8) := by decide
/-- A22: all eight bits of `FL` are written. -/
theorem test_cmp_writes_all_flags :
    after { running 0x00 [(0, 1), (1, 1)] [0xA7, 0, 1] [] with fl := 0xF8 } (fun t => t.fl) = some 0x01#8 := by decide
/-- K2: the stack pointer wraps below zero. -/
theorem test_push_wraps :
    after (running 0x10 [(0, 0x77), (7, 0x00)] [0x45, 0] []) (fun t => (t.x 7, t.read 0xFF, t.pc)) =
      some (0xFF#8, 0x77#8, 0x12#8) := by decide
/-- K5: the decremented pointer is stored. -/
theorem test_push_stack_pointer :
    after (running 0x00 [(7, 0xF4)] [0x45, 7] []) (fun t => (t.x 7, t.read 0xF3)) = some (0xF3#8, 0xF3#8) := by decide
/-- K3: the stack pointer wraps above 0xFF. -/
theorem test_pop_wraps :
    after (running 0x10 [(7, 0xFF)] [0x46, 1] [(0xFF, 0x66)]) (fun t => (t.x 1, t.x 7, t.pc)) =
      some (0x66#8, 0x00#8, 0x12#8) := by decide
/-- K6: the popped byte, then incremented. -/
theorem test_pop_stack_pointer :
    after (running 0x00 [(7, 0xF3)] [0x46, 7] [(0xF3, 0x20)]) (fun t => t.x 7) = some 0x21#8 := by decide
/-- J2: the return address wraps. -/
theorem test_call_wraps :
    after (running 0xFE [(1, 0x30)] [0x50, 1] []) (fun t => (t.x 7, t.read 0xF3, t.pc)) =
      some (0xF3#8, 0x00#8, 0x30#8) := by decide
/-- J3: the target is read after the push. -/
theorem test_call_stack_pointer :
    after (running 0x10 [] [0x50, 7] []) (fun t => (t.x 7, t.read 0xF3, t.pc)) =
      some (0xF3#8, 0x12#8, 0xF3#8) := by decide
/-- J6. -/
theorem test_ret_wraps :
    after (running 0x20 [(7, 0xFF)] [0x11] [(0xFF, 0x44)]) (fun t => (t.pc, t.x 7)) = some (0x44#8, 0x00#8) := by decide
/-- J7. -/
theorem test_jmp :
    after (running 0x0F [(0, 0x0F)] [0x54, 0] []) (fun t => t.pc) = some 0x0F#8 := by decide
/-- J14: only bit 0 is tested. -/
theorem test_jeq_taken :
    after { running 0x12 [(2, 0x30)] [0x55, 2] [] with fl := 0x81 } (fun t => t.pc) = some 0x30#8 := by decide
/-- J16: the index is checked though the jump would not be taken. -/
theorem test_jeq_bad_index :
    after (running 0x12 [] [0x55, 8] []) (fun t => (t.cause, t.errb, t.pc)) =
      some (.addressOutOfRange, 0x08#8, 0x12#8) := by decide
/-- J15. -/
theorem test_jne_taken :
    after { running 0x12 [(2, 0x30)] [0x56, 2] [] with fl := 0xFE } (fun t => t.pc) = some 0x30#8 := by decide
/-- J13. -/
theorem test_jne_falls_through :
    after { running 0x12 [(2, 0x30)] [0x56, 2] [] with fl := 0x01 } (fun t => t.pc) = some 0x14#8 := by decide
/-- Y2. -/
theorem test_hlt_wraps :
    after (running 0xFF [] [0x01] []) (fun t => (t.run, t.cause, t.errb, t.pc)) =
      some (false, .hlt, 0x00#8, 0x00#8) := by decide
/-- Y5: a frame read across the wrap. -/
theorem test_iret_wraps :
    after (running 0x50 [(7, 0xF8)] [0x13]
        [(0xF8, 1), (0xF9, 2), (0xFA, 3), (0xFB, 4), (0xFC, 5), (0xFD, 6), (0xFE, 7), (0xFF, 8), (0x00, 9)])
        (fun t => (t.regs, t.fl, t.pc)) =
      some (#v[7, 6, 5, 4, 3, 2, 1, 0x01], 0x08#8, 0x09#8) := by decide +kernel
/-- Y4: `FL` is stored whole and `TB` takes the sample. -/
theorem test_iret_flags_and_baseline :
    after { running 0x30 [(7, 0xEB)] [0x13] [(0xF2, 0xFF), (0xF3, 0x40)] with inputs := [.cycle 59] }
        (fun t => (t.fl, t.pc, t.tb)) = some (0xFF#8, 0x40#8, 59) := by decide +kernel

/-! The timer interrupt, the faults and the host. -/

/-- The table of R160 in spec/95_test_vectors.md section 3.7. -/
theorem test_tick_table :
    advancedByOne 10 10 = false ∧ advancedByOne 10 11 = true ∧ advancedByOne 10 12 = false ∧
    advancedByOne 10 9 = false ∧ advancedByOne 59 0 = true ∧ advancedByOne 59 1 = false ∧
    advancedByOne 0 59 = false ∧ advancedByOne 0 1 = true := by decide
/-- I1: a masked tick sets the bit and the instruction runs in the same cycle. -/
theorem test_masked_tick :
    after { running 0x00 [] [0x82, 0, 7] [] with tb := 10, inputs := [.cycle 11] }
        (fun t => (t.x 6, t.x 0, t.pc, t.tb)) = some (0x01#8, 0x07#8, 0x03#8, 10) := by decide
/-- I3: the frame, with bit 7 pending. -/
theorem test_entry_frame :
    after { running 0x20 [(5, 0x80), (6, 0x80), (0, 0x11), (4, 0x44)] [] [(0xF8, 0x60)] with fl := 0x02 }
        (fun t => ((t.x 6, t.x 7, t.pc), [0xF3#8, 0xF2#8, 0xF1#8, 0xED#8, 0xEC#8, 0xEB#8].map t.read)) =
      some ((0x00#8, 0xEB#8, 0x60#8), [0x20#8, 0x02#8, 0x11#8, 0x44#8, 0x80#8, 0x00#8]) := by decide +kernel
/-- I6: the vector cell is read after the pushes. -/
theorem test_entry_vector_after_pushes :
    after (running 0x40 [(7, 0xFC), (5, 0x01), (6, 0x01), (0, 0xAA), (1, 0x77)] [] [(0xF8, 0x60)])
        (fun t => (t.read 0xF8, t.pc)) = some (0x77#8, 0x77#8) := by decide +kernel
/-- I8: the interrupt comes before the fetch. -/
theorem test_entry_before_fetch :
    after (running 0x00 [(5, 0x01), (6, 0x01)] [0x00] []) (fun t => (t.run, t.cause, t.x 7)) =
      some (true, .none, 0xEB#8) := by decide +kernel
/-- F3. -/
theorem test_unknown_opcode :
    after (running 0x00 [] [0x83, 0, 1] []) (fun t => (t.run, t.cause, t.errb, t.pc, t.x 0)) =
      some (false, .unknownOpcode, 0x83#8, 0x00#8, 0x00#8) := by decide
/-- R192. -/
theorem test_run_request :
    after { State.reset with inputs := [.run 30] } (fun t => (t.run, t.tb, t.pc)) = some (true, 30, 0x00#8) := by decide
/-- R191: the loader writes a byte before the run, and a zero byte is listed nowhere. -/
theorem test_loader :
    after { State.reset with inputs := [.load 0xF8 0x11] } (fun t => (t.read 0xF8, t.mem)) =
      some (0x11#8, [(0xF8, 0x11#8)]) ∧
    after { State.reset with mem := [(0xF8, 0x11#8)], inputs := [.load 0xF8 0x00] } (fun t => t.mem) = some [] := by
  decide

/-! Witnesses: for each statement with hypotheses, values that meet them, at the boundaries of each clause. -/

/-- Whether an instruction answers exactly the next state `t`. -/
def answers (i : Instr) (s t : State) : Bool :=
  match exec i s with
  | .next u => decide (u = t)
  | .fault _ => false
  | .refused _ => false

/-- The operand values of the per-instruction statements: 7 is the last index, 8 and 255 are none. -/
theorem witness_LdiLoadsImmediate :
    (7#8 : Byte).toNat < 8 ∧ 8 ≤ (8#8 : Byte).toNat ∧ 8 ≤ (0xFF#8 : Byte).toNat ∧
    answers (.ldi 8 0) State.reset (State.reset.raise .addressOutOfRange 8) = true := by decide
theorem witness_StStoresRegister :
    (7#8 : Byte).toNat < 8 ∧ 8 ≤ (8#8 : Byte).toNat ∧
    answers (.st 7 8) State.reset (State.reset.raise .addressOutOfRange 8) = true ∧
    answers (.st 8 7) State.reset (State.reset.raise .addressOutOfRange 8) = true := by decide
theorem witness_PrnEmitsNumber :
    (7#8 : Byte).toNat < 8 ∧ 8 ≤ (8#8 : Byte).toNat ∧
    answers (.prn 8) State.reset (State.reset.raise .addressOutOfRange 8) = true := by decide
theorem witness_PraEmitsCharacter :
    (7#8 : Byte).toNat < 8 ∧ 8 ≤ (8#8 : Byte).toNat ∧
    answers (.pra 8) State.reset (State.reset.raise .addressOutOfRange 8) = true := by decide
theorem witness_AddWrapsModulo256 :
    (7#8 : Byte).toNat < 8 ∧ 8 ≤ (8#8 : Byte).toNat ∧
    answers (.add 7 8) State.reset (State.reset.raise .addressOutOfRange 8) = true ∧
    answers (.add 9 8) State.reset (State.reset.raise .addressOutOfRange 9) = true := by decide
theorem witness_MulWrapsModulo256 :
    (7#8 : Byte).toNat < 8 ∧ 8 ≤ (8#8 : Byte).toNat ∧
    answers (.mul 7 8) State.reset (State.reset.raise .addressOutOfRange 8) = true ∧
    answers (.mul 9 8) State.reset (State.reset.raise .addressOutOfRange 9) = true := by decide
theorem witness_CmpSetsExactlyOneFlag :
    (7#8 : Byte).toNat < 8 ∧ 8 ≤ (8#8 : Byte).toNat ∧
    answers (.cmp 7 8) State.reset (State.reset.raise .addressOutOfRange 8) = true ∧
    answers (.cmp 9 8) State.reset (State.reset.raise .addressOutOfRange 9) = true := by decide
theorem witness_PushStoresBelowStackPointer :
    (6#8 : Byte).toNat < 8 ∧ (7#8 : Byte).toNat < 8 ∧ 8 ≤ (8#8 : Byte).toNat ∧
    answers (.push 8) State.reset (State.reset.raise .addressOutOfRange 8) = true := by decide
theorem witness_PopLoadsFromStackPointer :
    (6#8 : Byte).toNat < 8 ∧ (7#8 : Byte).toNat < 8 ∧ 8 ≤ (8#8 : Byte).toNat ∧
    answers (.pop 8) State.reset (State.reset.raise .addressOutOfRange 8) = true := by decide
theorem witness_CallPushesReturnAddress :
    (6#8 : Byte).toNat < 8 ∧ (7#8 : Byte).toNat < 8 ∧ 8 ≤ (8#8 : Byte).toNat ∧
    answers (.call 8) State.reset (State.reset.raise .addressOutOfRange 8) = true := by decide
theorem witness_JmpTakesRegister :
    (7#8 : Byte).toNat < 8 ∧ 8 ≤ (8#8 : Byte).toNat ∧
    answers (.jmp 8) State.reset (State.reset.raise .addressOutOfRange 8) = true := by decide
theorem witness_JeqTestsEqualBit :
    (7#8 : Byte).toNat < 8 ∧ 8 ≤ (8#8 : Byte).toNat ∧
    answers (.jeq 8) State.reset (State.reset.raise .addressOutOfRange 8) = true := by decide
theorem witness_JneTestsEqualBit :
    (7#8 : Byte).toNat < 8 ∧ 8 ≤ (8#8 : Byte).toNat ∧
    answers (.jne 8) State.reset (State.reset.raise .addressOutOfRange 8) = true := by decide

/-- A byte of the table and one outside it. -/
theorem witness_OtherBytesAreUnknownOpcodes :
    (0x83#8 : Byte) ∉ dispatchTable.map Prod.fst ∧ (0x82#8 : Byte) ∈ dispatchTable.map Prod.fst := by decide
/-- One row of each format. -/
theorem witness_OperandCountIsHighBits :
    lookup 0x82#8 = some (.f2 .ldi) ∧ lookup 0x47#8 = some (.f1 .prn) ∧ lookup 0x01#8 = some (.f0 .hlt) :=
  ⟨rfl, rfl, rfl⟩
theorem witness_DecodeEncodeAgree : decode [0x84#8, 0x09#8, 0xFF#8, 0x13#8] = .ok (.st 9 0xFF, [0x13#8]) := by decide
theorem witness_FetchReadsEncodedBytes :
    (running 0xFE [] [0x82, 3, 0x9A] []).fetch = some (.ldi 3 0x9A) ∧
    (encode (.ldi 3 0x9A)).length = 3 := by decide
theorem witness_RegisterIndexIsWholeByte :
    (7#8 : Byte).toNat < 8 ∧ 8 ≤ (8#8 : Byte).toNat ∧ 8 ≤ (0xFF#8 : Byte).toNat := by decide
theorem witness_BadRegisterIndexStopsRun :
    firstBadOperand (.ldi 8 0) = some 8#8 ∧ firstBadOperand (.add 7 8) = some 8#8 ∧
    firstBadOperand (.st 9 8) = some 9#8 ∧ firstBadOperand (.jne 0xFF) = some 0xFF#8 := by decide

/-- A zero mask lets no interrupt in, whatever the second is. -/
theorem masked_not_pending (s : State) (t : Second) (h : s.x 5 = 0x00#8) : (s.timerPhase t).interruptPending = false := by
  have h' : (s.timerPhase t).x 5 = 0x00#8 := by rw [State.timerPhase_x_other _ _ _ (by decide), h]
  simp [State.interruptPending, h']

/-- The same machine with the script used up, so that the next cycle takes a free second. -/
def free (s : State) : State := s.setInputs []

/-- A cycle with the script's next second begins. -/
theorem begins {s : State} (hr : s.run = true) (hi : s.inputs = .cycle 0 :: []) :
    s.BeginsCycle ((s.setInputs []).timerPhase 0) :=
  ⟨hr, Or.inl ⟨_, _, hi, rfl⟩⟩

/-- A cycle with a free second begins. -/
theorem begins_free {s : State} (hr : s.run = true) :
    (free s).BeginsCycle ((free s).drawn.timerPhase (Config.secondsInput s.draws)) :=
  ⟨hr, Or.inr ⟨rfl, rfl⟩⟩

/-- An opcode byte with no row, in a cycle with no interrupt. -/
def unknownAt0 : State := running 0x00 [] [0x83, 0, 1] []

/-- Both ways to begin a cycle. -/
theorem witness_UnknownOpcodeStopsRun :
    (∃ u, unknownAt0.BeginsCycle u ∧ u.interruptPending = false) ∧
    (∃ u, (free unknownAt0).BeginsCycle u ∧ u.interruptPending = false) ∧
    unknownAt0.read unknownAt0.pc = 0x83#8 ∧ (free unknownAt0).read unknownAt0.pc = 0x83#8 ∧
    (0x83#8 : Byte) ∉ dispatchTable.map Prod.fst :=
  ⟨⟨_, begins (by decide) (by decide), masked_not_pending _ _ (by decide)⟩,
    ⟨_, begins_free (by decide), masked_not_pending _ _ (by decide)⟩, by decide, by decide, by decide⟩
/-- Both ways to begin a cycle. -/
theorem witness_ZeroByteStopsRun :
    (∃ u, (running 0x00 [] [] []).BeginsCycle u ∧ u.interruptPending = false) ∧
    (∃ u, (free (running 0x00 [] [] [])).BeginsCycle u ∧ u.interruptPending = false) ∧
    (running 0x00 [] [] []).read 0x00 = 0x00#8 ∧ (free (running 0x00 [] [] [])).read 0x00 = 0x00#8 :=
  ⟨⟨_, begins (by decide) (by decide), masked_not_pending _ _ (by decide)⟩,
    ⟨_, begins_free (by decide), masked_not_pending _ _ (by decide)⟩, by decide, by decide⟩
/-- The first clause at the last index; the second in a state that a run does not reach. -/
theorem witness_UnsupportedOperationIsUnreachable :
    (7#8 : Byte).toNat < 8 ∧
    answers .ret { State.reset with cause := .unsupportedOperation }
      (State.popPc { State.reset with cause := .unsupportedOperation }) = true ∧
    (State.popPc { State.reset with cause := .unsupportedOperation }).cause = .unsupportedOperation := by decide

/-- Whether an instruction answers a next state. -/
def completes (i : Instr) (s : State) : Bool :=
  match exec i s with
  | .next _ => true
  | .fault _ => false
  | .refused _ => false

/-- The hypothesis of every frame, for an instruction of each clause, and a register that is not the destination. -/
theorem witness_RegisterFrame :
    [Instr.ldi 7 1, .add 0 1, .mul 0 1, .pop 6, .push 0, .call 0, .ret, .prn 0, .pra 0, .hlt, .cmp 0 1, .jmp 0, .jeq 0,
      .jne 0, .st 0 1].all (fun i => completes i State.reset) = true ∧
    (6 : RegIndex).val ≠ (7#8 : Byte).toNat ∧ (5 : RegIndex).val ≠ (6#8 : Byte).toNat ∧ (5 : RegIndex) ≠ 7 := by decide
theorem witness_MemoryFrame :
    completes (.push 0) State.reset = true ∧ storeAddress (.push 0) State.reset = some 0xF3#8 ∧
    storeAddress (.call 7) State.reset = some 0xF3#8 ∧ storeAddress (.st 7 0) State.reset = some 0xF4#8 ∧
    (0xF2#8 : Byte) ≠ 0xF3#8 ∧ completes (.pop 0) State.reset = true ∧ storeAddress (.pop 0) State.reset = none ∧
    storeAddress (.st 0 8) State.reset = none := by decide
theorem witness_FlagsFrame :
    completes (.add 0 1) State.reset = true ∧ (∀ a b, Instr.add 0 1 ≠ .cmp a b) ∧ Instr.add 0 1 ≠ .iret := by
  refine ⟨by decide, ?_, by decide⟩
  intro a b h
  cases h
theorem witness_OutputFrame :
    completes (.add 0 1) State.reset = true ∧ (∀ a, Instr.add 0 1 ≠ .prn a) ∧ (∀ a, Instr.add 0 1 ≠ .pra a) := by
  refine ⟨by decide, ?_, ?_⟩ <;> intro a h <;> cases h
theorem witness_RunStateFrame :
    completes (.add 0 1) State.reset = true ∧ Instr.add 0 1 ≠ .hlt ∧ (Instr.add 0 1).wellFormed = true ∧
    Instr.add 0 1 ≠ .iret := by decide
theorem witness_StoreChangesOneCell : (0xFF#8 : Byte) ≠ 0x00#8 := by decide
theorem witness_MemoryIsItsCells : Memory.wf [(0, 1#8), (255, 2#8)] = true ∧ Memory.wf [(0, 0#8)] = false := by decide
theorem witness_PushPopRestoresRegisters : (7#8 : Byte).toNat < 8 ∧ (0#8 : Byte).toNat < 8 := by decide
theorem witness_CallRetReturns : (7#8 : Byte).toNat < 8 ∧ (0#8 : Byte).toNat < 8 := by decide

/-- A cycle in which an unmasked bit is pending. -/
def pendingAt0 : State := running 0x00 [(5, 0x01), (6, 0x01)] [] []

/-- The state right after entry is one of the states the statement speaks of. -/
theorem witness_InterruptRoundTrip :
    pendingAt0.interruptEntry.x 7 = pendingAt0.interruptEntry.x 7 ∧
    ∀ k : Nat, k < 9 → pendingAt0.interruptEntry.read (pendingAt0.interruptEntry.x 7 + BitVec.ofNat 8 k) =
      pendingAt0.interruptEntry.read (pendingAt0.interruptEntry.x 7 + BitVec.ofNat 8 k) :=
  ⟨rfl, fun _ _ => rfl⟩

/-- I10's start, with two cycles of the tick's second. -/
def tickingAt0 : State := { running 0x00 [(5, 0x01)] [] [] with tb := 10, inputs := [.cycle 11, .cycle 11] }

theorem witness_TimerReentersEveryCycle :
    tickingAt0.inputs = .cycle 11 :: .cycle 11 :: [] ∧ tickingAt0.run = true ∧ advancedByOne tickingAt0.tb 11 = true ∧
    (tickingAt0.x 5).getLsbD tickingAt0.params.timerBit.val = true := by decide

/-- `LDI R0, 7` at 0x00, with a script. -/
def ldiAt0 : State := running 0x00 [] [0x82, 0, 7] []

/-- The clauses of the interrupt check: pending; not pending with an instruction; not pending with an unknown byte. -/
theorem witness_UnmaskedPendingBitInterrupts :
    (∃ u, pendingAt0.BeginsCycle u ∧ u.interruptPending = true) ∧
    (∃ u, ldiAt0.BeginsCycle u ∧ u.interruptPending = false ∧ u.fetch = some (.ldi 0 7)) ∧
    (∃ u, unknownAt0.BeginsCycle u ∧ u.interruptPending = false ∧ u.fetch = none) :=
  ⟨⟨_, begins (by decide) (by decide), by decide⟩,
    ⟨_, begins (by decide) (by decide), by decide, by decide⟩,
    ⟨_, begins (by decide) (by decide), by decide, by decide⟩⟩
/-- The same clauses with the script used up, whatever the free second is. -/
theorem witness_UnmaskedPendingBitInterrupts_free :
    (∃ u, (free pendingAt0).BeginsCycle u ∧ u.interruptPending = true) ∧
    (∃ u, (free ldiAt0).BeginsCycle u ∧ u.interruptPending = false ∧ u.fetch = some (.ldi 0 7)) ∧
    (∃ u, (free unknownAt0).BeginsCycle u ∧ u.interruptPending = false ∧ u.fetch = none) := by
  refine ⟨⟨_, begins_free (by decide), ?_⟩,
    ⟨_, begins_free (by decide), masked_not_pending _ _ (by decide), ?_⟩,
    ⟨_, begins_free (by decide), masked_not_pending _ _ (by decide), ?_⟩⟩
  · have h : ∀ t : Second, ((free pendingAt0).drawn.timerPhase t).interruptPending = true := by decide
    exact h _
  · rw [State.timerPhase_fetch]; decide
  · rw [State.timerPhase_fetch]; decide
theorem witness_StepRunsDecodedInstruction :
    (∃ u, ldiAt0.BeginsCycle u ∧ u.interruptPending = false) ∧
    (∃ u, (free ldiAt0).BeginsCycle u ∧ u.interruptPending = false) ∧
    decode [ldiAt0.read ldiAt0.pc, ldiAt0.read (ldiAt0.pc + 1#8), ldiAt0.read (ldiAt0.pc + 2#8)] =
      .ok (.ldi 0 7, []) :=
  ⟨⟨_, begins (by decide) (by decide), masked_not_pending _ _ (by decide)⟩,
    ⟨_, begins_free (by decide), masked_not_pending _ _ (by decide)⟩, by decide⟩

/-- The step that stops by name: the loader port during a run. -/
theorem witness_StepStopsOnlyOnLoaderMisuse :
    step { ldiAt0 with inputs := [.load 0x00 0x01] } = .fault .loaderNotIdle := rfl

/-- A halted machine that is asked to run. -/
def haltedAt0 : State := { State.reset with cause := .hlt, inputs := [.run 5] }

theorem witness_HaltedIsTerminal :
    haltedAt0.run = false ∧ haltedAt0.cause ≠ .none ∧ step haltedAt0 = .next (haltedAt0.setInputs []) ∧
    ∀ rest, haltedAt0.inputs ≠ .reset :: rest := by
  refine ⟨rfl, by decide, rfl, ?_⟩
  intro rest h
  cases h
theorem witness_LoaderWritesMemoryOnly :
    ({ State.reset with inputs := [.load 0xFF 0x01] } : State).inputs = .load 0xFF 0x01 :: [] ∧
    State.reset.run = false ∧ State.reset.cause = .none := by decide
/-- Both branches: idle, and halted. -/
theorem witness_RunRequestStartsRun :
    ({ State.reset with inputs := [.run 5] } : State).inputs = .run 5 :: [] ∧
    (State.reset.run = false ∧ State.reset.cause = .none) ∧
    haltedAt0.inputs = .run 5 :: [] ∧ ¬(haltedAt0.run = false ∧ haltedAt0.cause = .none) := by decide
theorem witness_ResetInputLeaves :
    ({ ldiAt0 with inputs := [.reset] } : State).inputs = .reset :: [] := by decide

/-- A running state meets the invariant. -/
theorem witness_StepKeepsInvariant : ldiAt0.Inv ∧ ∃ t, step ldiAt0 = .next t ∧ t.x 0 = 0x07#8 := by
  refine ⟨⟨by decide, fun _ => rfl, fun _ => rfl, by decide, ?_, ?_⟩, ?_⟩
  · intro h; exact absurd h (by decide)
  · intro h; exact absurd h (by decide)
  · have h : after ldiAt0 (fun t => t.x 0) = some 0x07#8 := by decide
    unfold after at h
    split at h
    · next t e => exact ⟨t, e, by simpa using h⟩
    · cases h
    · cases h
/-- The premises of the invariant's fault clauses are met by the states two faults leave. -/
theorem witness_Inv_faults :
    after unknownAt0 (fun t => (t.cause, t.errb, t.read t.pc)) = some (.unknownOpcode, 0x83#8, 0x83#8) ∧
    after (running 0x00 [] [0x47, 8] []) (fun t => (t.cause, t.errb, t.fetch)) =
      some (.addressOutOfRange, 8#8, some (.prn 8)) := by decide
theorem witness_StepKeepsParameters : ∃ t, step ldiAt0 = .next t := by
  obtain ⟨u, h⟩ := State.cycle_next (ldiAt0.setInputs []) 0
  exact ⟨u, by rw [step_cycle (t := 0) (rest := []) rfl rfl, h]⟩
/-- A push in a cycle with no interrupt changes memory. -/
theorem witness_OnlyStoresAndEntryChangeMemory :
    after (running 0x00 [(0, 0x2A)] [0x45, 0] []) (fun t => t.mem) = some [(0x00, 0x45#8), (0xF3, 0x2A#8)] ∧
    (running 0x00 [(0, 0x2A)] [0x45, 0] []).mem = [(0x00, 0x45#8)] := by decide

/-- Two masked states that differ in `x[6]` and `TB`, given two different seconds. -/
theorem witness_MaskedStepIgnoresTime :
    State.SameButTime ldiAt0 { ldiAt0.setX 6 0x80#8 with tb := 10, inputs := [.cycle 11] } ∧
    ldiAt0.inputs = .cycle 0 :: [] ∧ ldiAt0.x 5 = 0x00#8 ∧
    (∀ i, ldiAt0.fetch = some i → 6#8 ∉ i.regOperands) := by
  refine ⟨⟨by decide, rfl, rfl, rfl, rfl, rfl, rfl, rfl, rfl, rfl⟩, by decide, by decide, ?_⟩
  intro i h
  have h' : ldiAt0.fetch = some (.ldi 0 7) := by decide
  rw [h'] at h
  cases h
  decide

end Sys2Proof.Machine.Tests
end

section
/-! SUPPORT. What the two operand forms answer once the operand bytes are known to be below 8 or not (R75, R97), and
what a two-operand opcode decodes to (R72); then data movement, LDI and ST (spec/41_data_movement.md). -/

namespace Sys2Proof

/-- An opcode whose row is of format `F2` takes exactly the next two bytes as its operands (R72, R96). -/
theorem decode_of_lookup_f2 {op : Byte} {mk : Byte → Byte → Instr} (h : lookup op = some (.f2 mk))
    (a b : Byte) (rest : List Byte) : decode (op :: a :: b :: rest) = .ok (mk a b, rest) := by
  simp [decode, h, Entry.operandCount, Entry.instr]

end Sys2Proof

namespace Sys2Proof.Machine

/-! The one-operand form. -/

theorem withReg_of_lt {a : Byte} (ha : a.toNat < 8) (s : State) (body : RegIndex → State) :
    withReg a s body = .next (body ⟨a.toNat, ha⟩) := by
  simp only [withReg, regIdx_of_lt a ha]

theorem withReg_of_ge {a : Byte} (ha : 8 ≤ a.toNat) (s : State) (body : RegIndex → State) :
    withReg a s body = .next (s.raise .addressOutOfRange a) := by
  simp only [withReg, regIdx_of_ge a ha]

/-! The two-operand form. -/

theorem withRegs_of_lt {a b : Byte} (ha : a.toNat < 8) (hb : b.toNat < 8) (s : State)
    (body : RegIndex → RegIndex → State) :
    withRegs a b s body = .next (body ⟨a.toNat, ha⟩ ⟨b.toNat, hb⟩) := by
  simp only [withRegs, regIdx_of_lt a ha, regIdx_of_lt b hb]

/-- A bad first operand is the one reported, whatever the second is (R97, D22). -/
theorem withRegs_of_ge_left {a : Byte} (ha : 8 ≤ a.toNat) (b : Byte) (s : State)
    (body : RegIndex → RegIndex → State) :
    withRegs a b s body = .next (s.raise .addressOutOfRange a) := by
  simp only [withRegs, regIdx_of_ge a ha]

theorem withRegs_of_ge_right {a b : Byte} (ha : a.toNat < 8) (hb : 8 ≤ b.toNat) (s : State)
    (body : RegIndex → RegIndex → State) :
    withRegs a b s body = .next (s.raise .addressOutOfRange b) := by
  simp only [withRegs, regIdx_of_lt a ha, regIdx_of_ge b hb]

/-! Data movement: the arms of `exec`. -/

theorem exec_ldi (a b : Byte) (s : State) :
    exec (.ldi a b) s = withReg a s fun i => (s.setX i b).advance 3#8 := rfl

theorem exec_st (a b : Byte) (s : State) :
    exec (.st a b) s = withRegs a b s fun i j => (s.store (s.x i) (s.x j)).advance 3#8 := rfl

/-- Settles O7: the row of 0x82 is `LDI`'s, and its one register operand is checked before the register is written. -/
theorem ldiLoadsImmediate : Obligations.LdiLoadsImmediate := by
  intro a b s rest
  refine ⟨decode_of_lookup_f2 rfl a b rest, fun ha => ?inRange, fun ha => ?outOfRange⟩
  case inRange => rw [exec_ldi, withReg_of_lt ha]; rfl
  case outOfRange => rw [exec_ldi, withReg_of_ge ha]; rfl

/-- Settles O8: the row of 0x84 is `ST`'s; with both indices good the new memory is the old one after one store, and a
bad index stops the run before the store, `a` checked before `b`. -/
theorem stStoresRegister : Obligations.StStoresRegister := by
  intro a b s rest
  refine ⟨decode_of_lookup_f2 rfl a b rest, fun ha hb => ?stores, fun ha => ?badFirst, fun ha hb => ?badSecond⟩
  case stores =>
    refine ⟨(s.store s.regs[a.toNat] s.regs[b.toNat]).mem, ?_, fun d => ?_⟩
    · rw [exec_st, withRegs_of_lt ha hb]; rfl
    · simp only [eq_comm (a := d)]
      exact State.store_read s _ _ d
  case badFirst => rw [exec_st, withRegs_of_ge_left ha]; rfl
  case badSecond => rw [exec_st, withRegs_of_ge_right ha hb]; rfl

end Sys2Proof.Machine
end

section
/-! SUPPORT. What a one-operand opcode decodes to (R72); then output, PRN (spec/42_output.md). -/

namespace Sys2Proof

/-- An opcode whose row is of format `F1` takes exactly the next byte as its operand (R72, R96). -/
theorem decode_of_lookup_f1 {op : Byte} {mk : Byte → Instr} (h : lookup op = some (.f1 mk))
    (a : Byte) (rest : List Byte) : decode (op :: a :: rest) = .ok (mk a, rest) := by
  simp [decode, h, Entry.operandCount, Entry.instr]

end Sys2Proof

namespace Sys2Proof.Machine

theorem exec_prn (a : Byte) (s : State) :
    exec (.prn a) s = withReg a s fun i => (s.emit .num (s.x i)).advance 2#8 := rfl

/-- Settles O9: the row of 0x47 is `PRN`'s, and its register operand is checked before the event is emitted. -/
theorem prnEmitsNumber : Obligations.PrnEmitsNumber := by
  intro a s rest
  refine ⟨decode_of_lookup_f1 rfl a rest, fun ha => ?inRange, fun ha => ?outOfRange⟩
  case inRange => rw [exec_prn, withReg_of_lt ha]; rfl
  case outOfRange => rw [exec_prn, withReg_of_ge ha]; rfl

end Sys2Proof.Machine
end

section
/-! SUPPORT. The 8-bit sum and product as unsigned integers modulo 256 (R8, R115), what an ALU instruction answers for
good and for bad operand bytes (R97, R110), and the three ALU instructions (spec/43_alu.md). -/

namespace Sys2Proof

theorem add8_eq_ofNat_mod (u v : Byte) : add8 u v = BitVec.ofNat 8 ((u.toNat + v.toNat) % 256) :=
  BitVec.eq_of_toNat_eq (by simp [BitVec.toNat_add])

theorem mul8_eq_ofNat_mod (u v : Byte) : mul8 u v = BitVec.ofNat 8 (u.toNat * v.toNat % 256) :=
  BitVec.eq_of_toNat_eq (by simp [BitVec.toNat_mul])

end Sys2Proof

namespace Sys2Proof.Machine

theorem aluInstr_of_lt (op : AluSelect) {a b : Byte} (ha : a.toNat < 8) (hb : b.toNat < 8) (s : State) :
    aluInstr op a b s =
      .next (aluFinish ⟨a.toNat, ha⟩ (alu op (s.x ⟨a.toNat, ha⟩) (s.x ⟨b.toNat, hb⟩)) s) :=
  withRegs_of_lt ha hb s _

theorem aluInstr_of_ge_left (op : AluSelect) {a : Byte} (ha : 8 ≤ a.toNat) (b : Byte) (s : State) :
    aluInstr op a b s = .next (s.raise .addressOutOfRange a) :=
  withRegs_of_ge_left ha b s _

theorem aluInstr_of_ge_right (op : AluSelect) {a b : Byte} (ha : a.toNat < 8) (hb : 8 ≤ b.toNat) (s : State) :
    aluInstr op a b s = .next (s.raise .addressOutOfRange b) :=
  withRegs_of_ge_right ha hb s _

/-! The ALU's arms of `exec`, each with its select value (R110). -/

theorem exec_add (a b : Byte) (s : State) : exec (.add a b) s = aluInstr .add a b s := rfl

theorem exec_mul (a b : Byte) (s : State) : exec (.mul a b) s = aluInstr .multiply a b s := rfl

theorem exec_cmp (a b : Byte) (s : State) : exec (.cmp a b) s = aluInstr .compare a b s := rfl

/-- Settles O11: the row of 0xA0 is `ADD`'s; the byte written is `add8` of the two registers, and both operands are
checked before it is written, `a` before `b`. -/
theorem addWrapsModulo256 : Obligations.AddWrapsModulo256 := by
  intro a b s rest
  refine ⟨decode_of_lookup_f2 rfl a b rest, fun ha hb => ?adds, fun ha => ?badFirst, fun ha hb => ?badSecond⟩
  case adds => rw [exec_add, aluInstr_of_lt .add ha hb, ← add8_eq_ofNat_mod]; rfl
  case badFirst => rw [exec_add, aluInstr_of_ge_left .add ha]; rfl
  case badSecond => rw [exec_add, aluInstr_of_ge_right .add ha hb]; rfl

/-- Settles O12: the row of 0xA2 is `MUL`'s; the byte written is `mul8` of the two registers, and both operands are
checked before it is written, `a` before `b`. -/
theorem mulWrapsModulo256 : Obligations.MulWrapsModulo256 := by
  intro a b s rest
  refine ⟨decode_of_lookup_f2 rfl a b rest, fun ha hb => ?multiplies, fun ha => ?badFirst, fun ha hb => ?badSecond⟩
  case multiplies => rw [exec_mul, aluInstr_of_lt .multiply ha hb, ← mul8_eq_ofNat_mod]; rfl
  case badFirst => rw [exec_mul, aluInstr_of_ge_left .multiply ha]; rfl
  case badSecond => rw [exec_mul, aluInstr_of_ge_right .multiply ha hb]; rfl

/-- Settles O13: the row of 0xA7 is `CMP`'s; `FL` takes `compareFlags` of the two registers, which is the statement's
three-way choice, and both operands are checked before it is written, `a` before `b`. -/
theorem cmpSetsExactlyOneFlag : Obligations.CmpSetsExactlyOneFlag := by
  intro a b s rest
  refine ⟨decode_of_lookup_f2 rfl a b rest, fun ha hb => ?compares, fun ha => ?badFirst, fun ha hb => ?badSecond⟩
  case compares => rw [exec_cmp, aluInstr_of_lt .compare ha hb]; rfl
  case badFirst => rw [exec_cmp, aluInstr_of_ge_left .compare ha]; rfl
  case badSecond => rw [exec_cmp, aluInstr_of_ge_right .compare ha hb]; rfl

end Sys2Proof.Machine
end

section
/-! SUPPORT. One less modulo 256 as an unsigned integer (R8); then the stack primitives `Push` and `Pop`
(spec/44_stack.md R120, R121) as whole next states. -/

namespace Sys2Proof

theorem sub8_one_toNat (u : Byte) : (sub8 u 1#8).toNat = (u.toNat + 255) % 256 := by
  simp [BitVec.toNat_sub, Nat.add_comm]

theorem sub8_one_eq_ofNat_mod (u : Byte) : sub8 u 1#8 = BitVec.ofNat 8 ((u.toNat + 255) % 256) :=
  BitVec.eq_of_toNat_eq (by rw [sub8_one_toNat]; simp)

end Sys2Proof

namespace Sys2Proof.Machine

/-- A push changes the stack pointer and memory, and nothing else (R120). -/
theorem State.push_eq (s : State) (v : Byte) :
    s.push v = { s with regs := s.regs.set 7 (sub8 (s.x 7) 1#8), mem := (s.push v).mem } := rfl

/-- A pop changes the stack pointer, and nothing else (R121). -/
theorem State.drop_eq (s : State) : s.drop = { s with regs := s.regs.set 7 (add8 (s.x 7) 1#8) } := rfl

/-- Settles O33: the new memory is the pushed state's, whose one changed cell is `sub8` of the stack pointer and 1, the
statement's address as an unsigned integer. -/
theorem pushDecrementsThenWrites : Obligations.PushDecrementsThenWrites := by
  intro s v
  refine ⟨(s.push v).mem, ?state, fun d => ?cell⟩
  case state => rw [← sub8_one_eq_ofNat_mod]; exact s.push_eq v
  case cell =>
    have address : sub8 (s.x 7) 1#8 = d ↔ d.toNat = (s.regs[7].toNat + 255) % 256 := by
      rw [eq_comm, ← BitVec.toNat_inj, sub8_one_toNat]; rfl
    simp only [← address]
    exact s.push_read v d

/-- Settles O34: the byte is the one at the stack pointer by the definition of `top`, and `drop` puts `add8` of the
stack pointer and 1 in register 7. -/
theorem popReadsThenIncrements : Obligations.PopReadsThenIncrements := by
  intro s
  refine ⟨?byte, ?state⟩
  case byte => rfl
  case state => rw [s.drop_eq, add8_eq_ofNat_mod]; rfl

end Sys2Proof.Machine
end

section
/-! SUPPORT. What an operand-free opcode decodes to (R72) and how `E` reads off the parity of `FL` (R28); then control
transfer, RET, JMP, JEQ and JNE (spec/45_control_transfer.md). -/

namespace Sys2Proof

/-- An opcode whose row is of format `F0` takes no operand byte (R72, R96). -/
theorem decode_of_lookup_f0 {op : Byte} {i : Instr} (h : lookup op = some (.f0 i)) (rest : List Byte) :
    decode (op :: rest) = .ok (i, rest) := by
  simp [decode, h, Entry.operandCount, Entry.instr]

end Sys2Proof

namespace Sys2Proof.Machine

/-- `PC <- Pop()` changes `PC` and the stack pointer, and nothing else (R131). -/
theorem State.popPc_eq (s : State) :
    s.popPc = { s with pc := s.top, regs := s.regs.set 7 (add8 (s.x 7) 1#8) } := rfl

/-- A conditional jump is one write of `PC`: `taken` decides which byte is written and nothing else (R133, R134). -/
theorem jumpIf_eq_setPc (taken : Bool) (i : RegIndex) (s : State) :
    jumpIf taken i s = s.setPc (if taken then s.x i else add8 s.pc 2#8) := by
  cases taken <;> rfl

theorem State.flagE_iff_odd (s : State) : s.flagE = true ↔ s.fl.toNat % 2 = 1 := by
  simp [State.flagE, BitVec.getLsbD, Nat.testBit_zero]

theorem State.not_flagE_iff_even (s : State) : (!s.flagE) = true ↔ s.fl.toNat % 2 = 0 := by
  rw [Bool.not_eq_true', ← Bool.not_eq_true, s.flagE_iff_odd]
  exact Nat.mod_two_ne_one

/-! Control transfer: the arms of `exec`. -/

theorem exec_ret (s : State) : exec .ret s = .next s.popPc := rfl

theorem exec_jmp (a : Byte) (s : State) : exec (.jmp a) s = withReg a s fun i => s.setPc (s.x i) := rfl

theorem exec_jeq (a : Byte) (s : State) : exec (.jeq a) s = withReg a s fun i => jumpIf s.flagE i s := rfl

theorem exec_jne (a : Byte) (s : State) : exec (.jne a) s = withReg a s fun i => jumpIf (!s.flagE) i s := rfl

/-- Settles O17: the row of 0x11 is `RET`'s, and `RET` is the pop into `PC`, which has no index to check. -/
theorem retPopsProgramCounter : Obligations.RetPopsProgramCounter := by
  intro s rest
  refine ⟨decode_of_lookup_f0 rfl rest, ?pops⟩
  case pops => rw [exec_ret, s.popPc_eq]; rfl

/-- Settles O18: the row of 0x54 is `JMP`'s, and its register operand is checked before `PC` is written. -/
theorem jmpTakesRegister : Obligations.JmpTakesRegister := by
  intro a s rest
  refine ⟨decode_of_lookup_f1 rfl a rest, fun ha => ?inRange, fun ha => ?outOfRange⟩
  case inRange => rw [exec_jmp, withReg_of_lt ha]; rfl
  case outOfRange => rw [exec_jmp, withReg_of_ge ha]; rfl

/-- Settles O19: the row of 0x55 is `JEQ`'s; `E` is set exactly when `FL` is odd, and the register operand is checked
before `E` is looked at. -/
theorem jeqTestsEqualBit : Obligations.JeqTestsEqualBit := by
  intro a s rest
  refine ⟨decode_of_lookup_f1 rfl a rest, fun ha => ?inRange, fun ha => ?outOfRange⟩
  case inRange =>
    rw [exec_jeq, withReg_of_lt ha, jumpIf_eq_setPc]
    simp only [s.flagE_iff_odd]
    rfl
  case outOfRange => rw [exec_jeq, withReg_of_ge ha]; rfl

/-- Settles O20: the row of 0x56 is `JNE`'s; `E` is clear exactly when `FL` is even, and the register operand is
checked before `E` is looked at. -/
theorem jneTestsEqualBit : Obligations.JneTestsEqualBit := by
  intro a s rest
  refine ⟨decode_of_lookup_f1 rfl a rest, fun ha => ?inRange, fun ha => ?outOfRange⟩
  case inRange =>
    rw [exec_jne, withReg_of_lt ha, jumpIf_eq_setPc]
    simp only [s.not_flagE_iff_even]
    rfl
  case outOfRange => rw [exec_jne, withReg_of_ge ha]; rfl

end Sys2Proof.Machine
end

section
/-! SUPPORT. Interrupt entry as a whole next state (R164); when a fetch finds no row (R95); the phase-2 condition bit by
bit (R163); and what a step that begins a cycle answers in each of the cycle's three branches (R91)
(spec/60_exceptions.md). -/

namespace Sys2Proof

/-- A byte is not zero exactly when one of its 8 bits is set. -/
theorem byte_ne_zero_iff_exists_bit (v : Byte) : v ≠ 0x00#8 ↔ ∃ k : Fin 8, v.getLsbD k.val = true := by
  constructor
  · intro hv
    by_contra hbits
    push Not at hbits
    exact hv (BitVec.eq_of_getLsbD_eq fun k hk => by simpa using hbits ⟨k, hk⟩)
  · rintro ⟨k, hk⟩ rfl
    simp at hk

end Sys2Proof

namespace Sys2Proof.Machine

/-! Interrupt entry (R164). -/

/-- The nine cells below the old stack pointer hold the frame, in the order of the pushes: no push reaches back to a
cell an earlier one wrote, since the nine distances differ. -/
theorem State.interruptEntry_read (s : State) (d : Byte) :
    s.interruptEntry.read d =
      if d = s.x 7 - 1#8 then s.pc
      else if d = s.x 7 - 2#8 then s.fl
      else if d = s.x 7 - 3#8 then s.x 0
      else if d = s.x 7 - 4#8 then s.x 1
      else if d = s.x 7 - 5#8 then s.x 2
      else if d = s.x 7 - 6#8 then s.x 3
      else if d = s.x 7 - 7#8 then s.x 4
      else if d = s.x 7 - 8#8 then s.x 5
      else if d = s.x 7 - 9#8 then 0x00#8
      else s.read d := by
  have pushes : s.interruptEntry.read d =
      if s.x 7 - 9#8 = d then 0x00#8
      else if s.x 7 - 8#8 = d then s.x 5
      else if s.x 7 - 7#8 = d then s.x 4
      else if s.x 7 - 6#8 = d then s.x 3
      else if s.x 7 - 5#8 = d then s.x 2
      else if s.x 7 - 4#8 = d then s.x 1
      else if s.x 7 - 3#8 = d then s.x 0
      else if s.x 7 - 2#8 = d then s.fl
      else if s.x 7 - 1#8 = d then s.pc
      else s.read d := by
    simp [State.interruptEntry, State.pushX, State.push_read, BitVec.sub_eq_add_neg, BitVec.add_assoc]
  grind

theorem State.interruptEntry_regs (s : State) :
    s.interruptEntry.regs = (s.regs.set 6 0x00#8).set 7 (s.x 7 - 9#8) := by
  refine State.regs_ext (t := (s.setX 6 0x00#8).setX 7 (s.x 7 - 9#8)) fun r => ?_
  rw [s.interruptEntry_x]
  fin_cases r <;> simp

/-- Entry continues at the byte the vector cell holds after the pushes (R64). -/
theorem State.interruptEntry_pc (s : State) : s.interruptEntry.pc = s.interruptEntry.read s.params.ivec := by
  simp [State.interruptEntry, State.pushX]

/-- Entry changes `x[6]`, `x[7]`, memory and `PC`, and nothing else. -/
theorem State.interruptEntry_eq (s : State) :
    s.interruptEntry =
      { s with
        regs := (s.regs.set 6 0x00#8).set 7 (s.x 7 - 9#8)
        mem := s.interruptEntry.mem
        pc := s.interruptEntry.read s.params.ivec } := by
  simp [State.ext_iff, s.interruptEntry_regs, s.interruptEntry_pc]

/-- Settles O40: the new memory is the entered state's, and the frame is read from it cell by cell. -/
theorem interruptEntryPushesNineBytes : Obligations.InterruptEntryPushesNineBytes := by
  intro s
  exact ⟨s.interruptEntry.mem, s.interruptEntry_eq, s.interruptEntry_read⟩

/-! The three branches of a cycle (R91, R93, R95). -/

theorem State.fetch_eq_none_iff (s : State) : s.fetch = none ↔ lookup (s.read s.pc) = none := by
  unfold State.fetch
  cases lookup (s.read s.pc) <;> simp

theorem State.interruptPending_iff (s : State) :
    s.interruptPending = true ↔ ∃ k : Fin 8, (s.x 6).getLsbD k.val = true ∧ (s.x 5).getLsbD k.val = true := by
  simp only [State.interruptPending, bne_iff_ne, byte_ne_zero_iff_exists_bit, BitVec.getLsbD_and, Bool.and_eq_true]

section
variable {s u : State} (h : s.BeginsCycle u)
include h

theorem step_of_interruptPending (hp : u.interruptPending = true) : step s = .next u.interruptEntry := by
  obtain ⟨w, t, hstep, rfl⟩ := step_of_beginsCycle h
  simp [hstep, State.cycle, hp]

theorem step_of_fetch_some (hp : u.interruptPending = false) {i : Instr} (hf : u.fetch = some i) :
    step s = exec i u := by
  obtain ⟨w, t, hstep, rfl⟩ := step_of_beginsCycle h
  simp [hstep, State.cycle, hp, hf]

theorem step_of_fetch_none (hp : u.interruptPending = false) (hf : u.fetch = none) :
    step s = .next (u.raise .unknownOpcode (u.read u.pc)) := by
  obtain ⟨w, t, hstep, rfl⟩ := step_of_beginsCycle h
  simp [hstep, State.cycle, hp, hf]

end

/-- Settles O24: a byte outside the table has no row, so nothing is fetched, and phase 1 left `PC` and that byte as
they were. -/
theorem unknownOpcodeStopsRun : Obligations.UnknownOpcodeStopsRun := by
  intro s u h hp hop
  obtain ⟨hread, hpc, hfetch⟩ := beginsCycle_same h
  have unfetched : u.fetch = none := by
    rw [hfetch, s.fetch_eq_none_iff]
    exact lookupIn_eq_none.mpr hop
  have reported : u.read u.pc = s.read s.pc := by rw [hread, hpc]
  rw [step_of_fetch_none h hp unfetched, reported]
  rfl

/-- Settles O39: the condition is read bit by bit, and each of the cycle's three branches is one of the last three
clauses. -/
theorem unmaskedPendingBitInterrupts : Obligations.UnmaskedPendingBitInterrupts := by
  intro s u h
  exact ⟨u.interruptPending_iff, step_of_interruptPending h, fun hp _ hf => step_of_fetch_some h hp hf,
    step_of_fetch_none h⟩

end Sys2Proof.Machine
end

section
/-! SUPPORT. Every instruction is a row of the dispatch table with its operand bytes, and `encode` writes exactly that
row's bytes (R70 to R73, R77); then the encoding obligations (spec/30_encoding.md). -/

namespace Sys2Proof

/-! The rows of the table. -/

/-- Encoding a row's instruction gives the row's byte and, in order, the operand bytes its format has. -/
theorem encode_instr_of_lookup {op : Byte} {e : Entry} (h : lookup op = some e) (operand : Nat → Byte) :
    encode (e.instr operand) = op :: (List.range e.operandCount).map operand := by
  have rows : ∀ p ∈ dispatchTable,
      encode (p.2.instr operand) = p.1 :: (List.range p.2.operandCount).map operand := by
    simp [dispatchTable, encode, Entry.instr, Entry.operandCount, List.range_succ]
  exact rows (op, e) (lookup_mem h)

/-- Every instruction is some row's, for suitable operand bytes: those of its own encoding. -/
theorem exists_lookup_instr (i : Instr) :
    ∃ op e, ∃ operand : Nat → Byte, lookup op = some e ∧ e.instr operand = i := by
  have row : ∃ e, lookup ((encode i).headD 0#8) = some e ∧ e.instr ((encode i).tail.getD · 0#8) = i := by
    cases i <;> exact ⟨_, rfl, rfl⟩
  obtain ⟨e, hrow, hinstr⟩ := row
  exact ⟨_, e, _, hrow, hinstr⟩

/-- A row's instruction depends only on the operand bytes its format has (R96). -/
theorem Entry.instr_congr (e : Entry) {f g : Nat → Byte} (h : ∀ k < e.operandCount, f k = g k) :
    e.instr f = e.instr g := by
  cases e with
  | f0 i => rfl
  | f1 mk => exact congrArg mk (h 0 Nat.one_pos)
  | f2 mk => exact congrArg₂ mk (h 0 Nat.two_pos) (h 1 Nat.one_lt_two)

/-- The operand count of a listed opcode is its two high bits, and the format 3 does not occur (R71). -/
theorem operandCount_of_lookup {op : Byte} {e : Entry} (h : lookup op = some e) :
    e.operandCount = op.toNat / 64 ∧ e.operandCount ≤ 2 := by
  have rows : ∀ p ∈ dispatchTable, p.2.operandCount = p.1.toNat / 64 ∧ p.2.operandCount ≤ 2 := by decide
  exact rows (op, e) (lookup_mem h)

theorem lookup_eq_none_iff (op : Byte) : lookup op = none ↔ op ∉ dispatchTable.map Prod.fst := lookupIn_eq_none

/-! Decoding, by the row it finds. -/

theorem decode_of_lookup_none {op : Byte} (h : lookup op = none) (rest : List Byte) :
    decode (op :: rest) = .error (.unknownOpcode op) := by
  simp [decode, h]

theorem decode_of_lookup_some {op : Byte} {e : Entry} (h : lookup op = some e) {rest : List Byte}
    (hlen : e.operandCount ≤ rest.length) :
    decode (op :: rest) = .ok (e.instr (rest.getD · 0#8), rest.drop e.operandCount) := by
  simp [decode, h, Nat.not_lt.mpr hlen]

/-- Everything a successful decode says of its bytes (R70, R78). -/
theorem decode_eq_ok {bytes : List Byte} {i : Instr} {rest : List Byte} (h : decode bytes = .ok (i, rest)) :
    ∃ op e tail, bytes = op :: tail ∧ lookup op = some e ∧ e.operandCount ≤ tail.length ∧
      i = e.instr (tail.getD · 0#8) ∧ rest = tail.drop e.operandCount := by
  cases bytes with
  | nil => cases h
  | cons op tail =>
    cases hrow : lookup op with
    | none => simp [decode_of_lookup_none hrow] at h
    | some e =>
      by_cases hlen : e.operandCount ≤ tail.length
      · rw [decode_of_lookup_some hrow hlen, Except.ok.injEq, Prod.mk.injEq] at h
        exact ⟨op, e, tail, rfl, hrow, hlen, h.1.symm, h.2.symm⟩
      · simp [decode, hrow, Nat.not_le.mp hlen] at h

/-- The first `n` bytes of a list, read by position, and the rest. -/
theorem map_getD_append_drop {n : Nat} {l : List Byte} (h : n ≤ l.length) :
    (List.range n).map (l.getD · 0#8) ++ l.drop n = l := by
  have front : (List.range n).map (l.getD · 0#8) = l.take n :=
    List.ext_getElem (by simp [h]) fun k hk _ => by
      have hk' : k < l.length := by simp at hk; omega
      simp [hk']
  rw [front, List.take_append_drop]

theorem decode_encode_append (i : Instr) (rest : List Byte) : decode (encode i ++ rest) = .ok (i, rest) := by
  obtain ⟨op, e, operand, hrow, rfl⟩ := exists_lookup_instr i
  rw [encode_instr_of_lookup hrow, List.cons_append, decode_of_lookup_some hrow (by simp)]
  have operands : ∀ k < e.operandCount,
      ((List.range e.operandCount).map operand ++ rest).getD k 0#8 = operand k := fun k hk => by
    rw [List.getD_append _ _ _ _ (by simpa using hk)]
    simp [hk]
  rw [e.instr_congr operands]
  simp

theorem eq_encode_append_of_decode {bytes : List Byte} {i : Instr} {rest : List Byte}
    (h : decode bytes = .ok (i, rest)) : bytes = encode i ++ rest := by
  obtain ⟨op, e, tail, rfl, hrow, hlen, rfl, rfl⟩ := decode_eq_ok h
  rw [encode_instr_of_lookup hrow, List.cons_append, map_getD_append_drop hlen]

/-- Settles O4: an instruction is a row of the table with operand bytes, and that row's byte and operands are both what
`encode` writes and what `decode` takes. -/
theorem decodeEncodeAgree : Obligations.DecodeEncodeAgree :=
  ⟨decode_encode_append, fun _ _ _ => eq_encode_append_of_decode⟩

/-- Settles O1: each word is an opcode byte with a row and exactly the operand bytes of the row's format. -/
theorem sixteenWordsDecode : Obligations.SixteenWordsDecode :=
  ⟨decode_of_lookup_f2 rfl _ _ _, decode_of_lookup_f1 rfl _ _, decode_of_lookup_f1 rfl _ _, decode_of_lookup_f0 rfl _,
    decode_of_lookup_f2 rfl _ _ _, decode_of_lookup_f2 rfl _ _ _, decode_of_lookup_f2 rfl _ _ _,
    decode_of_lookup_f1 rfl _ _, decode_of_lookup_f1 rfl _ _, decode_of_lookup_f1 rfl _ _, decode_of_lookup_f0 rfl _,
    decode_of_lookup_f1 rfl _ _, decode_of_lookup_f1 rfl _ _, decode_of_lookup_f1 rfl _ _,
    decode_of_lookup_f2 rfl _ _ _, decode_of_lookup_f0 rfl _⟩

/-- Settles O2: the listed bytes are the table's; outside it there is no row, and a row needs at most two operand
bytes. -/
theorem otherBytesAreUnknownOpcodes : Obligations.OtherBytesAreUnknownOpcodes := by
  intro op
  refine ⟨fun hop rest => ?unknown, fun hop a b rest => ?decodes⟩
  case unknown => exact decode_of_lookup_none ((lookup_eq_none_iff op).mpr hop) rest
  case decodes =>
    cases hrow : lookup op with
    | none => exact absurd hop ((lookup_eq_none_iff op).mp hrow)
    | some e =>
      have atMostTwo := (operandCount_of_lookup hrow).2
      exact ⟨_, _, decode_of_lookup_some hrow (by simp; omega)⟩

/-- Settles O3: it holds of each of the table's sixteen rows. -/
theorem operandCountIsHighBits : Obligations.OperandCountIsHighBits := fun _ _ => operandCount_of_lookup

end Sys2Proof

namespace Sys2Proof.Machine

/-! Fetching, by the row at `PC` (R94 to R96). -/

theorem State.fetch_eq_some_iff (s : State) (i : Instr) :
    s.fetch = some i ↔ ∃ e, lookup (s.read s.pc) = some e ∧ e.instr s.operandAt = i := by
  unfold State.fetch
  cases lookup (s.read s.pc) <;> simp

/-- The bytes of an instruction stand in memory from `PC` up: its opcode at `PC`, each operand byte where the engine
reads it (R70, R31). -/
theorem bytesAt_cons_iff (s : State) (op : Byte) (n : Nat) (operand : Nat → Byte) :
    (∀ k (h : k < (op :: (List.range n).map operand).length),
        s.read (s.pc + BitVec.ofNat 8 k) = (op :: (List.range n).map operand)[k]) ↔
      s.read s.pc = op ∧ ∀ k < n, s.operandAt k = operand k := by
  constructor
  · intro h
    refine ⟨by simpa using h 0 (by simp), fun k hk => ?_⟩
    exact (h (k + 1) (by simpa using hk)).trans (by simp)
  · rintro ⟨hop, hoperands⟩ k hk
    cases k with
    | zero => simpa using hop
    | succ k => simpa [State.operandAt] using hoperands k (by simpa using hk)

/-- Settles O5: both sides name one row of the table, the byte at `PC` and that row's operand bytes above it. -/
theorem fetchReadsEncodedBytes : Obligations.FetchReadsEncodedBytes := by
  intro s i
  constructor
  · intro hf
    obtain ⟨e, hrow, rfl⟩ := (s.fetch_eq_some_iff i).mp hf
    rw [encode_instr_of_lookup hrow]
    exact (bytesAt_cons_iff s _ _ _).mpr ⟨rfl, fun _ _ => rfl⟩
  · obtain ⟨op, e, operand, hrow, rfl⟩ := exists_lookup_instr i
    rw [encode_instr_of_lookup hrow, bytesAt_cons_iff]
    rintro ⟨hop, hoperands⟩
    exact (s.fetch_eq_some_iff _).mpr ⟨e, by rw [hop, hrow], e.instr_congr hoperands⟩

/-- Three bytes at `PC` that decode to an instruction are enough for the engine to fetch it (R70). -/
theorem State.fetch_of_decode {s : State} {i : Instr} {after : List Byte}
    (h : decode [s.read s.pc, s.read (s.pc + 1#8), s.read (s.pc + 2#8)] = .ok (i, after)) : s.fetch = some i := by
  obtain ⟨op, e, tail, hbytes, hrow, -, rfl, -⟩ := decode_eq_ok h
  obtain ⟨rfl, rfl⟩ := List.cons.inj hbytes
  refine (s.fetch_eq_some_iff _).mpr ⟨e, hrow, e.instr_congr fun k hk => ?_⟩
  have hk2 : k < 2 := lt_of_lt_of_le hk (operandCount_of_lookup hrow).2
  interval_cases k <;> rfl

/-- Settles O6: the whole byte is compared with 8. -/
theorem registerIndexIsWholeByte : Obligations.RegisterIndexIsWholeByte :=
  fun v => ⟨regIdx_of_lt v, regIdx_of_ge v⟩

end Sys2Proof.Machine
end

section
/-! SUPPORT. The first bad register operand stops the run (R97, R152); then everything `exec` can do, one constructor an
instruction, from which the frames are read off. -/

namespace Sys2Proof.Machine

/-! The first bad register operand (R97, D22). -/

theorem isRegIndex_eq_false_iff (v : Byte) : isRegIndex v = false ↔ 8 ≤ v.toNat := by
  simp [isRegIndex]

/-- The first bad operand is one of the register operands, and is no register index. -/
theorem firstBadOperand_eq_some {i : Instr} {v : Byte} (h : firstBadOperand i = some v) :
    v ∈ i.regOperands ∧ isRegIndex v = false :=
  ⟨List.mem_of_find?_eq_some h, by simpa using List.find?_some h⟩

/-- A well-formed instruction has no bad operand. -/
theorem firstBadOperand_of_wellFormed {i : Instr} (h : i.wellFormed = true) : firstBadOperand i = none := by
  simpa [firstBadOperand, Instr.wellFormed] using h

theorem withReg_of_bad {i : Instr} {a v : Byte} (hi : i.regOperands = [a]) (h : firstBadOperand i = some v) (s : State)
    (body : RegIndex → State) : withReg a s body = .next (s.raise .addressOutOfRange v) := by
  have bad : isRegIndex a = false ∧ a = v := by simpa [firstBadOperand, hi, List.find?_cons_eq_some] using h
  obtain ⟨ha, rfl⟩ := bad
  exact withReg_of_ge ((isRegIndex_eq_false_iff a).mp ha) s body

theorem withRegs_of_bad {i : Instr} {a b v : Byte} (hi : i.regOperands = [a, b]) (h : firstBadOperand i = some v)
    (s : State) (body : RegIndex → RegIndex → State) :
    withRegs a b s body = .next (s.raise .addressOutOfRange v) := by
  have bad : isRegIndex a = false ∧ a = v ∨ isRegIndex a = true ∧ isRegIndex b = false ∧ b = v := by
    simpa [firstBadOperand, hi, List.find?_cons_eq_some] using h
  obtain ⟨ha, rfl⟩ | ⟨ha, hb, rfl⟩ := bad
  · exact withRegs_of_ge_left ((isRegIndex_eq_false_iff a).mp ha) b s body
  · exact withRegs_of_ge_right (by simpa [isRegIndex] using ha) ((isRegIndex_eq_false_iff b).mp hb) s body

/-- Settles O23: the operand forms check the register operands in the order in which `firstBadOperand` looks at them. -/
theorem badRegisterIndexStopsRun : Obligations.BadRegisterIndexStopsRun := by
  intro i s v h
  cases i with
  | hlt => cases h
  | ret => cases h
  | iret => cases h
  | ldi a b => exact withReg_of_bad rfl h s _
  | prn a => exact withReg_of_bad rfl h s _
  | pra a => exact withReg_of_bad rfl h s _
  | push a => exact withReg_of_bad rfl h s _
  | pop a => exact withReg_of_bad rfl h s _
  | call a => exact withReg_of_bad rfl h s _
  | jmp a => exact withReg_of_bad rfl h s _
  | jeq a => exact withReg_of_bad rfl h s _
  | jne a => exact withReg_of_bad rfl h s _
  | add a b => exact withRegs_of_bad rfl h s _
  | mul a b => exact withRegs_of_bad rfl h s _
  | cmp a b => exact withRegs_of_bad rfl h s _
  | st a b => exact withRegs_of_bad rfl h s _

/-! Everything an instruction can do (R97). -/

/-- `Effect s i t`: the next state `t` of instruction `i` in state `s`, one constructor for each instruction whose
register operands are good and one for a bad operand (`effect_of_exec` ties it to `exec`). -/
inductive Effect (s : State) : Instr → State → Prop
  | ldi {a b : Byte} {i : RegIndex} (ha : regIdx a = some i) : Effect s (.ldi a b) ((s.setX i b).advance 3#8)
  | prn {a : Byte} {i : RegIndex} (ha : regIdx a = some i) : Effect s (.prn a) ((s.emit .num (s.x i)).advance 2#8)
  | pra {a : Byte} {i : RegIndex} (ha : regIdx a = some i) : Effect s (.pra a) ((s.emit .chr (s.x i)).advance 2#8)
  | hlt : Effect s .hlt ((s.stop .hlt 0x00#8).advance 1#8)
  | add {a b : Byte} {i j : RegIndex} (ha : regIdx a = some i) (hb : regIdx b = some j) :
      Effect s (.add a b) ((s.setX i (add8 (s.x i) (s.x j))).advance 3#8)
  | mul {a b : Byte} {i j : RegIndex} (ha : regIdx a = some i) (hb : regIdx b = some j) :
      Effect s (.mul a b) ((s.setX i (mul8 (s.x i) (s.x j))).advance 3#8)
  | cmp {a b : Byte} {i j : RegIndex} (ha : regIdx a = some i) (hb : regIdx b = some j) :
      Effect s (.cmp a b) ((s.setFl (compareFlags (s.x i) (s.x j))).advance 3#8)
  | push {a : Byte} {i : RegIndex} (ha : regIdx a = some i) :
      Effect s (.push a) ((s.push ((s.setX 7 (sub8 (s.x 7) 1#8)).x i)).advance 2#8)
  | pop {a : Byte} {i : RegIndex} (ha : regIdx a = some i) :
      Effect s (.pop a) ((s.setX i s.top).drop.advance 2#8)
  | call {a : Byte} {i : RegIndex} (ha : regIdx a = some i) :
      Effect s (.call a) ((s.push (add8 s.pc 2#8)).setPc ((s.push (add8 s.pc 2#8)).x i))
  | ret : Effect s .ret s.popPc
  | jmp {a : Byte} {i : RegIndex} (ha : regIdx a = some i) : Effect s (.jmp a) (s.setPc (s.x i))
  | jeq {a : Byte} {i : RegIndex} (ha : regIdx a = some i) : Effect s (.jeq a) (jumpIf s.flagE i s)
  | jne {a : Byte} {i : RegIndex} (ha : regIdx a = some i) : Effect s (.jne a) (jumpIf (!s.flagE) i s)
  | st {a b : Byte} {i j : RegIndex} (ha : regIdx a = some i) (hb : regIdx b = some j) :
      Effect s (.st a b) ((s.store (s.x i) (s.x j)).advance 3#8)
  | iret : Effect s .iret s.interruptReturn
  | bad {i : Instr} {v : Byte} (h : firstBadOperand i = some v) : Effect s i (s.raise .addressOutOfRange v)

section
variable {s t : State} {i : Instr}

theorem effect_of_withReg {a : Byte} {body : RegIndex → State} (hi : i.regOperands = [a])
    (good : ∀ j, regIdx a = some j → Effect s i (body j)) (h : withReg a s body = .next t) : Effect s i t := by
  obtain ⟨j, hj, rfl⟩ | ⟨ha, rfl⟩ := withReg_cases h
  · exact good j hj
  · exact .bad (by simp [firstBadOperand, hi, (regIdx_eq_none a).mp ha])

theorem effect_of_withRegs {a b : Byte} {body : RegIndex → RegIndex → State} (hi : i.regOperands = [a, b])
    (good : ∀ j k, regIdx a = some j → regIdx b = some k → Effect s i (body j k))
    (h : withRegs a b s body = .next t) : Effect s i t := by
  obtain ⟨j, k, hj, hk, rfl⟩ | ⟨ha, rfl⟩ | ⟨j, hj, hb, rfl⟩ := withRegs_cases h
  · exact good j k hj hk
  · exact .bad (by simp [firstBadOperand, hi, (regIdx_eq_none a).mp ha])
  · have ha : isRegIndex a = true := by
      rw [← Bool.not_eq_false, ← regIdx_eq_none, hj]; simp
    exact .bad (by simp [firstBadOperand, hi, ha, (regIdx_eq_none b).mp hb])

/-- What `exec` answers is the instruction's effect. -/
theorem effect_of_exec (h : exec i s = .next t) : Effect s i t := by
  cases i with
  | hlt => rw [← Host.Outcome.next.inj h]; exact .hlt
  | ret => rw [← Host.Outcome.next.inj h]; exact .ret
  | iret => rw [← Host.Outcome.next.inj h]; exact .iret
  | ldi a b => exact effect_of_withReg rfl (fun _ => .ldi) h
  | prn a => exact effect_of_withReg rfl (fun _ => .prn) h
  | pra a => exact effect_of_withReg rfl (fun _ => .pra) h
  | push a => exact effect_of_withReg rfl (fun _ => .push) h
  | pop a => exact effect_of_withReg rfl (fun _ => .pop) h
  | call a => exact effect_of_withReg rfl (fun _ => .call) h
  | jmp a => exact effect_of_withReg rfl (fun _ => .jmp) h
  | jeq a => exact effect_of_withReg rfl (fun _ => .jeq) h
  | jne a => exact effect_of_withReg rfl (fun _ => .jne) h
  | add a b => exact effect_of_withRegs rfl (fun _ _ => .add) h
  | mul a b => exact effect_of_withRegs rfl (fun _ _ => .mul) h
  | cmp a b => exact effect_of_withRegs rfl (fun _ _ => .cmp) h
  | st a b => exact effect_of_withRegs rfl (fun _ _ => .st) h

/-! What each effect leaves alone, field by field. -/

variable (h : Effect s i t)
include h

/-- The parameters, the sample, the host's script and the draw counter (R38). -/
theorem Effect.outside_eq :
    t.params = s.params ∧ t.seconds = s.seconds ∧ t.inputs = s.inputs ∧ t.draws = s.draws := by
  cases h <;> simp [jumpIf_eq_setPc]

theorem Effect.tb_eq (hi : i ≠ .iret) : t.tb = s.tb := by
  cases h with
  | iret => exact absurd rfl hi
  | _ => simp [jumpIf_eq_setPc]

theorem Effect.fl_eq (hc : ∀ a b, i ≠ .cmp a b) (hi : i ≠ .iret) : t.fl = s.fl := by
  cases h with
  | cmp => exact absurd rfl (hc _ _)
  | iret => exact absurd rfl hi
  | _ => simp [jumpIf_eq_setPc]

/-- The output is extended by one event, by PRN or PRA, or stays (R107). -/
theorem Effect.out_cases :
    t.out = s.out ∨ ((∃ a, i = .prn a) ∨ (∃ a, i = .pra a)) ∧ ∃ e, t.out = s.out ++ [e] := by
  cases h with
  | prn => exact .inr ⟨.inl ⟨_, rfl⟩, _, rfl⟩
  | pra => exact .inr ⟨.inr ⟨_, rfl⟩, _, rfl⟩
  | _ => simp [jumpIf_eq_setPc]

/-- `RUN`, `CAUSE` and `ERRB` stay, but for HLT and for a bad register operand (R33). -/
theorem Effect.stop_cases :
    (t.run = s.run ∧ t.cause = s.cause ∧ t.errb = s.errb) ∨
    (i = .hlt ∧ t = (s.stop .hlt 0x00#8).advance 1#8) ∨
    (∃ v, firstBadOperand i = some v ∧ t = s.raise .addressOutOfRange v) := by
  cases h with
  | hlt => exact .inr (.inl ⟨rfl, rfl⟩)
  | bad hv => exact .inr (.inr ⟨_, hv, rfl⟩)
  | _ => simp [jumpIf_eq_setPc]

/-- Memory stays but for one store, at the cell `storeAddress` names (R53). -/
theorem Effect.mem_cases :
    t.mem = s.mem ∨ ∃ c v, storeAddress i s = some c ∧ t.mem = s.mem.write c.toNat v := by
  cases h with
  | st ha hb => exact .inr ⟨_, _, by simp [storeAddress, ha, hb], rfl⟩
  | push ha => exact .inr ⟨_, _, by simp [storeAddress, ha], rfl⟩
  | call ha => exact .inr ⟨_, _, by simp [storeAddress, ha], rfl⟩
  | _ => simp [jumpIf_eq_setPc]

/-- An instruction keeps memory's canonical form (R50). -/
theorem Effect.wf_mem (hm : s.mem.wf = true) : t.mem.wf = true := by
  obtain e | ⟨c, v, -, e⟩ := h.mem_cases
  · rwa [e]
  · rw [e]; exact Memory.wf_write _ _ _ hm

end

/-! The frames. -/

/-- A register the operand byte does not name is not the register written. -/
theorem ne_of_regIdx {a : Byte} {i r : RegIndex} (ha : regIdx a = some i) (hr : r.val ≠ a.toNat) : i ≠ r := by
  rintro rfl
  exact hr ((regIdx_eq_some a i).mp ha).symm

/-- Settles O26: each effect writes the registers its clause names; a bad operand writes none. -/
theorem registerFrame : Obligations.RegisterFrame := by
  intro i s t h r
  cases effect_of_exec h with
  | iret => trivial
  | ldi ha => intro hr; simp [ne_of_regIdx ha hr]
  | add ha hb => intro hr; simp [ne_of_regIdx ha hr]
  | mul ha hb => intro hr; simp [ne_of_regIdx ha hr]
  | pop ha => intro hr h7; simp [ne_of_regIdx ha hr, h7.symm]
  | push ha => intro h7; simp [h7.symm]
  | call ha => intro h7; simp [h7.symm]
  | ret => intro h7; simp [h7.symm]
  | bad hv => cases i <;> simp
  | _ => simp [jumpIf_eq_setPc]

/-- Settles O27: an effect changes memory by at most one store, at the address the instruction stores to. -/
theorem memoryFrame : Obligations.MemoryFrame := by
  intro i s t h
  obtain e | ⟨c, v, hc, e⟩ := (effect_of_exec h).mem_cases
  · simp [State.read, e]
  · refine ⟨fun d hd x hx => ?other, fun hnone => ?none⟩
    case other =>
      obtain rfl : c = d := Option.some.inj (hc.symm.trans hd)
      have he : t.read x = (s.store c v).read x := congrArg (Memory.read · x.toNat) e
      rw [he, State.store_read_other s c v x hx.symm]
    case none => simp [hc] at hnone

/-- Settles O28: CMP and IRET are the two effects that write `FL`. -/
theorem flagsFrame : Obligations.FlagsFrame := fun _ _ _ h => (effect_of_exec h).fl_eq

/-- Settles O29: the output stays, or PRN or PRA appends one event. -/
theorem outputFrame : Obligations.OutputFrame := by
  intro i s t h
  obtain e | ⟨hi, v, e⟩ := (effect_of_exec h).out_cases
  · simp [e]
  · refine ⟨fun hprn hpra => ?_, by simp [e], by simp [e]⟩
    obtain ⟨a, rfl⟩ | ⟨a, rfl⟩ := hi
    · exact absurd rfl (hprn a)
    · exact absurd rfl (hpra a)

/-- Settles O30: HLT and a bad operand are the two ways to stop, and a well-formed instruction has no bad operand. -/
theorem runStateFrame : Obligations.RunStateFrame := by
  intro i s t h
  have he := effect_of_exec h
  refine ⟨fun hhlt hwf => ?_, he.tb_eq, he.outside_eq⟩
  obtain same | ⟨rfl, -⟩ | ⟨v, hv, -⟩ := he.stop_cases
  · exact same
  · exact absurd rfl hhlt
  · simp [firstBadOperand_of_wellFormed hwf] at hv

/-- Settles O25: no instruction's arm selects the ALU's fourth operation, and the other stops have causes of their
own. -/
theorem unsupportedOperationIsUnreachable : Obligations.UnsupportedOperationIsUnreachable := by
  refine ⟨fun a b s ha hb => aluInstr_of_lt .other ha hb s, fun i s t h hc => ?_⟩
  obtain ⟨-, e, -⟩ | ⟨-, rfl⟩ | ⟨v, -, rfl⟩ := (effect_of_exec h).stop_cases
  · rw [← e, hc]
  · simp at hc
  · simp at hc

end Sys2Proof.Machine
end

section
/-! SUPPORT. Memory as its 256 cells (R50, R51); then the whole next states of HLT, PRA, PUSH, POP, CALL and IRET, and
the two round trips over the stack (spec/44_stack.md, spec/45_control_transfer.md, spec/46_system.md). -/

namespace Sys2Proof.Machine

/-! Memory in canonical form (R50). -/

/-- Below its lowest listed address canonical memory reads as unlisted cells do. -/
theorem Memory.read_eq_init_of_lt {m : Memory} {lo a : Nat} (hm : m.wfFrom lo = true) (ha : a < lo) :
    m.read a = Config.cellInit := by
  induction m generalizing lo with
  | nil => rfl
  | cons p rest ih =>
    obtain ⟨k, v⟩ := p
    simp only [Memory.wfFrom, Bool.and_eq_true, decide_eq_true_eq] at hm
    obtain ⟨⟨⟨hlo, -⟩, -⟩, hrest⟩ := hm
    have hk : k ≠ a := by omega
    simpa [Memory.read, hk] using ih hrest (by omega)

/-- Canonical memory that lists a cell reads a value there that canonical memory from a higher address up cannot. -/
theorem Memory.cons_read_ne {k lo : Nat} {v : Byte} {rest m : Memory} (hv : v ≠ Config.cellInit) (hk : k < lo)
    (hm : m.wfFrom lo = true) : Memory.read ((k, v) :: rest) k ≠ m.read k := by
  simpa [Memory.read_eq_init_of_lt hm hk, Memory.read] using hv

/-- Canonical memories from the same address up that read the same are the same: their first entries are. -/
theorem Memory.eq_of_read_eq {m m' : Memory} {lo : Nat} (hm : m.wfFrom lo = true) (hm' : m'.wfFrom lo = true)
    (h : ∀ d < 256, m.read d = m'.read d) : m = m' := by
  induction m generalizing m' lo with
  | nil =>
    cases m' with
    | nil => rfl
    | cons p' rest' =>
      obtain ⟨k', v'⟩ := p'
      simp only [Memory.wfFrom, Bool.and_eq_true, decide_eq_true_eq] at hm'
      obtain ⟨⟨⟨-, hk'⟩, hv'⟩, -⟩ := hm'
      exact absurd (h k' hk').symm (Memory.cons_read_ne hv' (Nat.lt_succ_self k') rfl)
  | cons p rest ih =>
    obtain ⟨k, v⟩ := p
    have hm0 := hm
    simp only [Memory.wfFrom, Bool.and_eq_true, decide_eq_true_eq] at hm
    obtain ⟨⟨⟨hlo, hk⟩, hv⟩, hrest⟩ := hm
    cases m' with
    | nil => exact absurd (h k hk) (Memory.cons_read_ne hv (Nat.lt_succ_self k) rfl)
    | cons p' rest' =>
      obtain ⟨k', v'⟩ := p'
      simp only [Memory.wfFrom, Bool.and_eq_true, decide_eq_true_eq] at hm'
      obtain ⟨⟨⟨hlo', hk'⟩, hv'⟩, hrest'⟩ := hm'
      obtain hlt | rfl | hgt := Nat.lt_trichotomy k k'
      · have above : Memory.wfFrom k' ((k', v') :: rest') = true := by simp [Memory.wfFrom, hk', hv', hrest']
        exact absurd (h k hk) (Memory.cons_read_ne hv hlt above)
      · have hvv : v = v' := by simpa [Memory.read] using h k hk
        have hrr : ∀ d < 256, Memory.read rest d = Memory.read rest' d := fun d hd => by
          by_cases hkd : k = d
          · subst hkd
            rw [Memory.read_eq_init_of_lt hrest (Nat.lt_succ_self k),
              Memory.read_eq_init_of_lt hrest' (Nat.lt_succ_self k)]
          · simpa [Memory.read, hkd] using h d hd
        rw [hvv, ih hrest hrest' hrr]
      · have above : Memory.wfFrom k ((k, v) :: rest) = true := by simp [Memory.wfFrom, hk, hv, hrest]
        exact absurd (h k' hk').symm (Memory.cons_read_ne hv' hgt above)

/-- Settles O32: canonical memories agree entry by entry, since a lowest listed cell reads differently in any memory
that does not list it. -/
theorem memoryIsItsCells : Obligations.MemoryIsItsCells := by
  intro m m' hm hm' h
  exact Memory.eq_of_read_eq hm hm' fun d hd => by simpa [Nat.mod_eq_of_lt hd] using h (BitVec.ofNat 8 d)

/-- Settles O31: the read-after-write rule at the written cell and at another one. -/
theorem storeChangesOneCell : Obligations.StoreChangesOneCell :=
  fun s a v d => ⟨s.store_read_self a v, fun h => s.store_read_other a v d h.symm, rfl⟩

/-! The arms of `exec`. -/

theorem exec_hlt (s : State) : exec .hlt s = .next ((s.stop .hlt 0x00#8).advance 1#8) := rfl

theorem exec_pra (a : Byte) (s : State) :
    exec (.pra a) s = withReg a s fun i => (s.emit .chr (s.x i)).advance 2#8 := rfl

/-- The register is read after the decrement (R122, D13). -/
theorem exec_push (a : Byte) (s : State) :
    exec (.push a) s = withReg a s fun i => (s.push ((s.setX 7 (sub8 (s.x 7) 1#8)).x i)).advance 2#8 := rfl

/-- The register is loaded before the increment (R123, D13). -/
theorem exec_pop (a : Byte) (s : State) :
    exec (.pop a) s = withReg a s fun i => (s.setX i s.top).drop.advance 2#8 := rfl

/-- The target is read after the push (R130, D13). -/
theorem exec_call (a : Byte) (s : State) :
    exec (.call a) s =
      withReg a s fun i => (s.push (add8 s.pc 2#8)).setPc ((s.push (add8 s.pc 2#8)).x i) := rfl

theorem exec_iret (s : State) : exec .iret s = .next s.interruptReturn := rfl

/-- Settles O21: the stop records the cause and the byte, and the increment passes the opcode. -/
theorem hltEndsRun : Obligations.HltEndsRun := exec_hlt

/-- Settles O10: the row of 0x48 is `PRA`'s, and its register operand is checked before the event is emitted. -/
theorem praEmitsCharacter : Obligations.PraEmitsCharacter := by
  intro a s rest
  refine ⟨decode_of_lookup_f1 rfl a rest, fun ha => ?inRange, fun ha => ?outOfRange⟩
  case inRange => rw [exec_pra, withReg_of_lt ha]; rfl
  case outOfRange => rw [exec_pra, withReg_of_ge ha]; rfl

/-! The stack instructions: the one register with a case of its own is the stack pointer itself. -/

/-- The byte 7 names the stack pointer and no other byte does. -/
theorem index_eq_seven_iff {a : Byte} (ha : a.toNat < 8) : (⟨a.toNat, ha⟩ : RegIndex) = 7 ↔ a = 7#8 := by
  rw [Fin.ext_iff, ← BitVec.toNat_inj]; rfl

/-- A register read after the stack pointer moved: the new pointer for register 7, the register as it was for every
other. -/
theorem State.setX_seven_x {a : Byte} (ha : a.toNat < 8) (s : State) (v : Byte) :
    (s.setX 7 v).x ⟨a.toNat, ha⟩ = if a = 7#8 then v else s.regs[a.toNat] := by
  simp only [State.setX_x, eq_comm (a := (7 : RegIndex)), index_eq_seven_iff ha]; rfl

/-- A register loaded before the stack pointer moves: the pointer starts from the loaded byte for register 7. -/
theorem State.setX_drop_regs (s : State) (i : RegIndex) (v : Byte) :
    (s.setX i v).drop.regs =
      if i = 7 then s.regs.set 7 (add8 v 1#8) else (s.regs.set i.val v).set 7 (add8 (s.x 7) 1#8) := by
  rw [State.drop_eq]
  by_cases hi : i = 7
  · subst hi; simp
  · simp [hi]

@[simp] theorem State.push_top (s : State) (v : Byte) : (s.push v).top = v := by
  simp [State.top, State.push_read]

@[simp] theorem State.advance_top (s : State) (n : Byte) : (s.advance n).top = s.top := rfl

@[simp] theorem State.setPc_top (s : State) (v : Byte) : (s.setPc v).top = s.top := rfl

theorem State.push_mem_read (s : State) (v d : Byte) :
    Memory.read (s.push v).mem d.toNat = if d = s.regs[7] - 1#8 then v else s.read d := by
  simp only [eq_comm (a := d)]
  exact s.push_read v d

/-- Settles O14: the byte pushed is the register as the decrement leaves it. -/
theorem pushStoresBelowStackPointer : Obligations.PushStoresBelowStackPointer := by
  intro a s
  refine ⟨fun ha => ?inRange, fun ha => ?outOfRange⟩
  case inRange =>
    rw [← State.setX_seven_x ha]
    refine ⟨(s.push ((s.setX 7 (sub8 (s.x 7) 1#8)).x ⟨a.toNat, ha⟩)).mem, ?_, s.push_mem_read _⟩
    rw [exec_push, withReg_of_lt ha]
    rfl
  case outOfRange => rw [exec_push, withReg_of_ge ha]; rfl

/-- Settles O15: for register 7 the increment starts from the byte just loaded. -/
theorem popLoadsFromStackPointer : Obligations.PopLoadsFromStackPointer := by
  intro a s
  refine ⟨fun ha => ?inRange, fun ha => ?outOfRange⟩
  case inRange =>
    rw [exec_pop, withReg_of_lt ha]
    simp only [← index_eq_seven_iff ha]
    exact congrArg _ (State.ext (s.setX_drop_regs _ _) rfl rfl rfl rfl rfl rfl rfl rfl rfl rfl rfl rfl)
  case outOfRange => rw [exec_pop, withReg_of_ge ha]; rfl

/-- Settles O16: the target is the register as the push leaves it. -/
theorem callPushesReturnAddress : Obligations.CallPushesReturnAddress := by
  intro a s
  refine ⟨fun ha => ?inRange, fun ha => ?outOfRange⟩
  case inRange =>
    refine ⟨(s.push (add8 s.pc 2#8)).mem, ?_, s.push_mem_read _⟩
    have target : (s.push (add8 s.pc 2#8)).x ⟨a.toNat, ha⟩ = if a = 7#8 then s.regs[7] - 1#8 else s.regs[a.toNat] :=
      State.setX_seven_x ha s _
    rw [exec_call, withReg_of_lt ha, target]
    rfl
  case outOfRange => rw [exec_call, withReg_of_ge ha]; rfl

/-- The byte popped is the one pushed, and the pointer's increment undoes its decrement; when the register is the
stack pointer itself, the byte is the decremented pointer. -/
theorem State.push_pop_regs (s : State) (i : RegIndex) :
    ((s.push ((s.setX 7 (sub8 (s.x 7) 1#8)).x i)).setX i ((s.setX 7 (sub8 (s.x 7) 1#8)).x i)).drop.regs = s.regs := by
  refine State.regs_ext fun r => ?_
  by_cases hr : 7 = r
  · subst hr
    by_cases hi : i = 7
    · subst hi; simp
    · simp [hi]
  · by_cases hi : i = r
    · subst hi; simp [hr]
    · simp [hi, hr]

/-- Settles O35: `POP` loads back the byte `PUSH` stored, and `x[7]` moves down and up. -/
theorem pushPopRestoresRegisters : Obligations.PushPopRestoresRegisters := by
  intro a s ha
  refine ⟨_, _, by rw [exec_push, withReg_of_lt ha], by rw [exec_pop, withReg_of_lt ha], ?registers, ?pc⟩
  case registers =>
    rw [State.advance_top, State.push_top]
    exact s.push_pop_regs ⟨a.toNat, ha⟩
  case pc => simp [BitVec.add_assoc]

theorem State.push_drop_regs (s : State) (v : Byte) : (s.push v).drop.regs = s.regs := by
  refine State.regs_ext fun r => ?_
  by_cases hr : 7 = r
  · subst hr; simp
  · simp [hr]

/-- Settles O36: the return address is the byte `CALL` pushed, and the pop undoes the push's decrement. -/
theorem callRetReturns : Obligations.CallRetReturns := by
  intro a s ha
  refine ⟨_, _, by rw [exec_call, withReg_of_lt ha], exec_ret _, ?pc, ?registers⟩
  case pc => simp [State.popPc]
  case registers => exact s.push_drop_regs (add8 s.pc 2#8)

/-! IRET (R141). -/

/-- The nine pops read upwards from the stack pointer: `x[6]` first, `x[0]` last of the registers. -/
theorem State.interruptReturn_x (s : State) (r : RegIndex) :
    s.interruptReturn.x r =
      #v[s.read (s.x 7 + 6#8), s.read (s.x 7 + 5#8), s.read (s.x 7 + 4#8), s.read (s.x 7 + 3#8),
         s.read (s.x 7 + 2#8), s.read (s.x 7 + 1#8), s.read (s.x 7), s.x 7 + 9#8][r] := by
  fin_cases r <;> simp [State.interruptReturn, State.top, BitVec.add_assoc]

theorem State.interruptReturn_fl (s : State) : s.interruptReturn.fl = s.read (s.x 7 + 7#8) := by
  simp [State.interruptReturn, State.popFl, State.top, BitVec.add_assoc]

theorem State.interruptReturn_pc (s : State) : s.interruptReturn.pc = s.read (s.x 7 + 8#8) := by
  simp [State.interruptReturn, State.popPc, State.top, BitVec.add_assoc]

/-- `IRET` changes the registers, `FL`, `PC` and `TB`, and nothing else. -/
theorem State.interruptReturn_eq (s : State) :
    s.interruptReturn =
      { s with
        regs := #v[s.read (s.x 7 + 6#8), s.read (s.x 7 + 5#8), s.read (s.x 7 + 4#8), s.read (s.x 7 + 3#8),
                   s.read (s.x 7 + 2#8), s.read (s.x 7 + 1#8), s.read (s.x 7), s.x 7 + 9#8]
        fl := s.read (s.x 7 + 7#8)
        pc := s.read (s.x 7 + 8#8)
        tb := s.seconds } := by
  have registers := Vector.ext fun k hk => s.interruptReturn_x ⟨k, hk⟩
  simp [State.ext_iff, registers, s.interruptReturn_fl, s.interruptReturn_pc]

/-- Settles O22: the nine pops in the order of their addresses; `TB` takes the sample. -/
theorem iretRestoresNineBytes : Obligations.IretRestoresNineBytes := by
  intro s
  rw [exec_iret, s.interruptReturn_eq]
  rfl

end Sys2Proof.Machine
end

section
/-! SUPPORT. The tick and phase 1 (R159, R160); the frame that entry leaves, cell by cell upwards, and the round trip
through IRET (R141, R164); and the entry that an unmasked tick brings about (R163, R167) (spec/60_exceptions.md). -/

namespace Sys2Proof.Machine

/-- Settles O37: `tb + 1` is 60 for `tb = 59` alone. -/
theorem tickIsOneSecondLater : Obligations.TickIsOneSecondLater := by
  intro tb t
  have htb := tb.isLt
  have ht := t.isLt
  simp only [advancedByOne, beq_iff_eq]
  omega

/-- Settles O38: in a tick the new `x[6]` is the old one or'ed with the timer's one-bit mask, and otherwise it is the
old one. -/
theorem timerSetsItsPendingBit : Obligations.TimerSetsItsPendingBit := by
  intro s t
  obtain ⟨hadv, e⟩ | ⟨hadv, e⟩ := s.timerPhase_cases t
  · refine ⟨s.x 6 ||| bitMask s.params.timerBit, by rw [e]; rfl, fun k => ?_⟩
    rw [BitVec.getLsbD_or, bitMask_getLsbD, hadv, Bool.and_true]
    rfl
  · refine ⟨s.x 6, by rw [e]; simp [State.ext_iff, State.x], fun k => ?_⟩
    rw [hadv, Bool.and_false, Bool.or_false]
    rfl

/-! Entry and return (R141, R164). -/

/-- The frame upwards from the lowered stack pointer: the order in which IRET pops it. -/
theorem State.interruptEntry_frame (s : State) {k : Nat} (hk : k < 9) :
    s.interruptEntry.read (s.interruptEntry.x 7 + BitVec.ofNat 8 k) =
      #v[0x00#8, s.x 5, s.x 4, s.x 3, s.x 2, s.x 1, s.x 0, s.fl, s.pc][k] := by
  rw [s.interruptEntry_x, s.interruptEntry_read]
  interval_cases k <;> simp [BitVec.sub_eq_add_neg, BitVec.add_assoc]

/-- Settles O41: the nine cells IRET pops are the frame, upwards from the stack pointer entry left. -/
theorem interruptRoundTrip : Obligations.InterruptRoundTrip := by
  intro s h hsp hframe
  have cell : ∀ (k : Nat) (hk : k < 9), h.read (h.x 7 + BitVec.ofNat 8 k) =
      #v[0x00#8, s.x 5, s.x 4, s.x 3, s.x 2, s.x 1, s.x 0, s.fl, s.pc][k] := fun k hk => by
    rw [hframe k hk, hsp, s.interruptEntry_frame hk]
  have pointer : h.x 7 + 9#8 = s.x 7 := by
    rw [hsp, s.interruptEntry_x]; simp
  have bottom : h.read (h.x 7) = 0x00#8 := by simpa using cell 0 (by decide)
  have registers : h.interruptReturn.regs = s.regs.set 6 0x00#8 := by
    refine State.regs_ext (t := s.setX 6 0x00#8) fun r => ?_
    rw [h.interruptReturn_x, pointer, cell 1 (by decide), cell 2 (by decide), cell 3 (by decide), cell 4 (by decide),
      cell 5 (by decide), cell 6 (by decide), bottom]
    fin_cases r <;> simp
  have flags : h.interruptReturn.fl = s.fl := h.interruptReturn_fl.trans (cell 7 (by decide))
  have counter : h.interruptReturn.pc = s.pc := h.interruptReturn_pc.trans (cell 8 (by decide))
  rw [exec_iret, Host.Outcome.next.injEq]
  simp [State.ext_iff, registers, flags, counter]

/-! The unmasked tick (R163, R167). -/

/-- A tick whose bit the mask lets through is a pending interrupt (R159, R163). -/
theorem State.timerPhase_pending {s : State} {t : Second} (htick : advancedByOne s.tb t = true)
    (hmask : (s.x 5).getLsbD s.params.timerBit.val = true) : (s.timerPhase t).interruptPending = true := by
  refine (State.interruptPending_iff _).mpr ⟨s.params.timerBit, ?bit, ?mask⟩
  case mask => rwa [State.timerPhase_x_other _ _ _ (by decide)]
  case bit =>
    obtain ⟨-, e⟩ | ⟨hno, -⟩ := s.timerPhase_cases t
    · simp [e, bitMask_getLsbD]
    · simp [htick] at hno

theorem State.interruptEntry_read_saved_pc (s : State) : s.interruptEntry.read (s.x 7 - 1#8) = s.pc := by
  simp [State.interruptEntry_read]

/-- What an interrupt entry in a cycle of `s` leaves in `u`, as far as the next cycle and its frame depend on it. -/
structure EntryLeaves (s u : State) : Prop where
  run    : u.run = s.run
  tb     : u.tb = s.tb
  params : u.params = s.params
  mask   : u.x 5 = s.x 5
  status : u.x 6 = 0x00#8
  sp     : u.x 7 = s.x 7 - 9#8
  pc     : u.pc = u.read s.params.ivec
  saved  : u.read (s.x 7 - 1#8) = s.pc

theorem entryLeaves_timerPhase (s : State) (t : Second) : EntryLeaves s (s.timerPhase t).interruptEntry where
  run    := by simp
  tb     := by simp
  params := by simp
  mask   := by simp [State.interruptEntry_x, State.timerPhase_x_other]
  status := by simp [State.interruptEntry_x]
  sp     := by simp [State.interruptEntry_x, State.timerPhase_x_other]
  pc     := by simp [State.interruptEntry_pc]
  saved  := by
    have sp : (s.timerPhase t).x 7 = s.x 7 := State.timerPhase_x_other s t 7 (by decide)
    rw [← sp, State.interruptEntry_read_saved_pc, State.timerPhase_pc]

/-- A cycle in which an unmasked tick falls is an interrupt entry (R91, R163). -/
theorem step_of_unmasked_tick {s : State} {t : Second} {rest : List HostInput} (hi : s.inputs = .cycle t :: rest)
    (hr : s.run = true) (htick : advancedByOne s.tb t = true)
    (hmask : (s.x 5).getLsbD s.params.timerBit.val = true) :
    ∃ u, step s = .next u ∧ u.inputs = rest ∧ EntryLeaves s u := by
  have hp : ((s.setInputs rest).timerPhase t).interruptPending = true :=
    State.timerPhase_pending (s := s.setInputs rest) htick hmask
  refine ⟨_, step_of_interruptPending ⟨hr, .inl ⟨t, rest, hi, rfl⟩⟩ hp, by simp, ?_⟩
  obtain ⟨run, tb, params, mask, status, sp, pc, saved⟩ := entryLeaves_timerPhase (s.setInputs rest) t
  exact ⟨run, tb, params, mask, status, sp, pc, saved⟩

/-- Settles O42: entry changes neither the baseline nor the mask, so the tick's second brings about a second entry,
whose frame starts below the first one's. -/
theorem timerReentersEveryCycle : Obligations.TimerReentersEveryCycle := by
  intro s t rest hi hr htick hmask
  obtain ⟨u, first, ui, hu⟩ := step_of_unmasked_tick hi hr htick hmask
  obtain ⟨v, second, vi, hv⟩ :=
    step_of_unmasked_tick ui (hu.run.trans hr) (by rwa [hu.tb]) (by rwa [hu.mask, hu.params])
  refine ⟨u, v, first, second, hu.sp, ?sp, hu.pc, ?saved, ?pc, hv.status, hv.tb.trans hu.tb, vi⟩
  case sp =>
    rw [hv.sp, hu.sp]
    simp [BitVec.sub_eq_add_neg, BitVec.add_assoc]
  case saved =>
    have address : s.x 7 - 10#8 = u.x 7 - 1#8 := by
      rw [hu.sp]
      simp [BitVec.sub_eq_add_neg, BitVec.add_assoc]
    rw [address, hv.saved]
  case pc => rw [hv.pc, hu.params]

end Sys2Proof.Machine
end

section
/-! SUPPORT. Everything a step that answers a next state can do, one constructor each; then what the host's inputs do
(spec/70_reset_and_hazards.md), what every step keeps, and the invariant (spec/40_execution_cycle.md,
spec/60_exceptions.md). -/

namespace Sys2Proof.Machine

/-! The host's inputs (R190 to R192). -/

theorem step_of_inputs {s : State} {act : HostInput} {rest : List HostInput} (hi : s.inputs = act :: rest) :
    step s = (s.setInputs rest).hostAct act := by
  simp [step, State.nextStep, hi]

/-- Settles O46: before the run the loader's write is one store. -/
theorem loaderWritesMemoryOnly : Obligations.LoaderWritesMemoryOnly := by
  intro s a v rest hi hr hc
  have hidle : (s.setInputs rest).idle = true := (State.idle_iff _).mpr ⟨hr, hc⟩
  refine ⟨(s.store a v).mem, ?state, fun d => ?cell⟩
  case state =>
    rw [step_of_inputs hi, State.hostAct, State.hostLoad, if_pos hidle]
    rfl
  case cell =>
    simp only [eq_comm (a := d)]
    exact s.store_read a v d

/-- Settles O47: the request is taken exactly in the idle state. -/
theorem runRequestStartsRun : Obligations.RunRequestStartsRun := by
  intro s t rest hi
  simp only [step_of_inputs hi, State.hostAct, State.hostRun, State.idle_iff, State.setInputs_run,
    State.setInputs_cause]
  split <;> rfl

/-- Settles O49: each field of `State.reset` is a literal, and its memory lists no cell. -/
theorem resetStateValues : Obligations.ResetStateValues :=
  ⟨rfl, rfl, by decide, rfl, rfl, rfl, rfl, fun _ => rfl⟩

/-- Settles O48: the reset input leaves the registers and the empty memory of `State.reset`. -/
theorem resetInputLeaves : Obligations.ResetInputLeaves := by
  intro s rest hi
  obtain ⟨-, -, registers, -⟩ := resetStateValues
  exact ⟨_, step_of_inputs hi, rfl, rfl, registers, rfl, rfl, rfl, rfl, fun _ => rfl, rfl, rfl, rfl⟩

theorem State.running_or_stopped_of_not_idle {s : State} (h : s.idle = false) : s.run = true ∨ s.cause ≠ .none := by
  cases hr : s.run with
  | true => exact .inl rfl
  | false => exact .inr (by simpa [State.idle, hr] using h)

/-- Settles O44: cycles, resets and `run` requests always answer a next state, and a loader write does in the idle
state. -/
theorem stepStopsOnlyOnLoaderMisuse : Obligations.StepStopsOnlyOnLoaderMisuse := by
  intro s
  obtain ⟨act, rest, hi, e⟩ | ⟨-, -, e⟩ | ⟨-, -, e⟩ := step_cases s
  · rw [e]
    obtain ⟨t, -, -, e'⟩ | ⟨t, -, -, e'⟩ | ⟨-, e'⟩ | ⟨a, v, -, -, e'⟩ | ⟨a, v, rfl, hidle, e'⟩ | ⟨t, -, -, e'⟩ |
      ⟨t, -, -, e'⟩ := (s.setInputs rest).hostAct_cases act
    · rw [e']; exact .inl (State.cycle_next _ _)
    · exact .inl ⟨_, e'⟩
    · exact .inl ⟨_, e'⟩
    · exact .inl ⟨_, e'⟩
    · exact .inr ⟨e', State.running_or_stopped_of_not_idle hidle, a, v, rest, hi⟩
    · exact .inl ⟨_, e'⟩
    · exact .inl ⟨_, e'⟩
  · rw [e]; exact .inl (State.cycle_next _ _)
  · exact .inl ⟨_, e⟩

/-! Everything a step can do. -/

/-- `StepEffect s t`: how a step of `s` comes to answer `t`, one constructor for each branch of a cycle (R91) and for
each host input (R190 to R192) (`stepEffect_of_step` ties it to `step`). -/
inductive StepEffect (s : State) : State → Prop
  /-- An interrupt entry (R93). -/
  | entry {u : State} (hb : s.BeginsCycle u) (hp : u.interruptPending = true) : StepEffect s u.interruptEntry
  /-- An opcode byte with no row (R95). -/
  | unknown {u : State} (hb : s.BeginsCycle u) (hp : u.interruptPending = false) (hf : u.fetch = none) :
      StepEffect s (u.raise .unknownOpcode (u.read u.pc))
  /-- An instruction (R97). -/
  | instr {u t : State} {i : Instr} (hb : s.BeginsCycle u) (hp : u.interruptPending = false) (hf : u.fetch = some i)
      (he : Effect u i t) : StepEffect s t
  /-- Not running, and the host does nothing (R90). -/
  | waits (hi : s.inputs = []) (hr : s.run = false) : StepEffect s s
  /-- A cycle the host allows while not running (R32). -/
  | noCycle {sec : Second} {rest : List HostInput} (hi : s.inputs = .cycle sec :: rest) (hr : s.run = false) :
      StepEffect s (s.setInputs rest)
  /-- A `run` request outside the idle state (R192). -/
  | noRun {sec : Second} {rest : List HostInput} (hi : s.inputs = .run sec :: rest) (hidle : s.idle = false) :
      StepEffect s (s.setInputs rest)
  /-- A `run` request in the idle state (R192). -/
  | run {sec : Second} {rest : List HostInput} (hi : s.inputs = .run sec :: rest) (hidle : s.idle = true) :
      StepEffect s ((s.setInputs rest).startRun sec)
  /-- A loader write in the idle state (R191). -/
  | load {a v : Byte} {rest : List HostInput} (hi : s.inputs = .load a v :: rest) (hidle : s.idle = true) :
      StepEffect s ((s.setInputs rest).store a v)
  /-- The reset input (R190). -/
  | reset {rest : List HostInput} (hi : s.inputs = .reset :: rest) : StepEffect s (s.setInputs rest).hostReset

/-- A step that begins a cycle takes one of the cycle's three branches. -/
theorem stepEffect_of_beginsCycle {s u t : State} (hb : s.BeginsCycle u) (h : step s = .next t) : StepEffect s t := by
  cases hp : u.interruptPending with
  | true =>
    rw [step_of_interruptPending hb hp, Host.Outcome.next.injEq] at h
    exact h ▸ .entry hb hp
  | false =>
    cases hf : u.fetch with
    | none =>
      rw [step_of_fetch_none hb hp hf, Host.Outcome.next.injEq] at h
      exact h ▸ .unknown hb hp hf
    | some i =>
      rw [step_of_fetch_some hb hp hf] at h
      exact .instr hb hp hf (effect_of_exec h)

/-- What a step answers is one of the effects. -/
theorem stepEffect_of_step {s t : State} (h : step s = .next t) : StepEffect s t := by
  obtain ⟨act, rest, hi, e⟩ | ⟨hi, hr, -⟩ | ⟨hi, hr, e⟩ := step_cases s
  · have answer {u : State} (e' : (s.setInputs rest).hostAct act = .next u) : u = t :=
      Host.Outcome.next.inj ((e.trans e').symm.trans h)
    obtain ⟨sec, rfl, hr, -⟩ | ⟨sec, rfl, hr, e'⟩ | ⟨rfl, e'⟩ | ⟨a, v, rfl, hidle, e'⟩ | ⟨a, v, rfl, -, e'⟩ |
      ⟨sec, rfl, hidle, e'⟩ | ⟨sec, rfl, hidle, e'⟩ := (s.setInputs rest).hostAct_cases act
    · exact stepEffect_of_beginsCycle ⟨hr, .inl ⟨sec, rest, hi, rfl⟩⟩ h
    · exact answer e' ▸ .noCycle hi hr
    · exact answer e' ▸ .reset hi
    · exact answer e' ▸ .load hi hidle
    · rw [e, e'] at h; cases h
    · exact answer e' ▸ .run hi hidle
    · exact answer e' ▸ .noRun hi hidle
  · exact stepEffect_of_beginsCycle ⟨hr, .inr ⟨hi, rfl⟩⟩ h
  · rw [e, Host.Outcome.next.injEq] at h
    exact h ▸ .waits hi hr

/-- Settles O45: a halted machine neither begins a cycle nor is idle, so only the inputs without an effect are left. -/
theorem haltedIsTerminal : Obligations.HaltedIsTerminal := by
  intro s t hr hc h hnoReset
  have notIdle : s.idle = false := by simpa [State.idle, hr] using hc
  cases stepEffect_of_step h with
  | entry hb _ => simp [hb.1] at hr
  | unknown hb _ _ => simp [hb.1] at hr
  | instr hb _ _ _ => simp [hb.1] at hr
  | waits hi _ => simp [State.ext_iff, hi]
  | noCycle hi _ => rw [hi]; rfl
  | noRun hi _ => rw [hi]; rfl
  | run _ hidle => simp [notIdle] at hidle
  | load _ hidle => simp [notIdle] at hidle
  | reset hi => exact absurd hi (hnoReset _)

/-! Cycles that take no interrupt. -/

/-- Settles O43: the three bytes are enough to fetch the instruction, and phase 1 does not touch what a fetch reads. -/
theorem stepRunsDecodedInstruction : Obligations.StepRunsDecodedInstruction := by
  intro s u i after h hp hdecode
  obtain ⟨-, -, hfetch⟩ := beginsCycle_same h
  exact step_of_fetch_some h hp (hfetch.trans (State.fetch_of_decode hdecode))

/-- Settles O50: 0x00 has no row. -/
theorem zeroByteStopsRun : Obligations.ZeroByteStopsRun := by
  intro s u h hp hzero
  obtain ⟨hread, hpc, hfetch⟩ := beginsCycle_same h
  have unfetched : u.fetch = none := by
    rw [hfetch, s.fetch_eq_none_iff, hzero]; rfl
  refine ⟨_, step_of_fetch_none h hp unfetched, rfl, rfl, ?_, hpc⟩
  rw [State.raise_errb, hread, hpc, hzero]

/-! What every step keeps. -/

/-- A cycle begins with the parameters, the memory and the recorded stop as they were. -/
theorem beginsCycle_keeps {s u : State} (h : s.BeginsCycle u) :
    u.params = s.params ∧ u.mem = s.mem ∧ u.cause = s.cause ∧ u.errb = s.errb := by
  obtain ⟨-, ⟨t, rest, -, rfl⟩ | ⟨-, rfl⟩⟩ := h <;> simp

/-- Settles O53: only a cycle runs an instruction, and no effect of one writes the parameters. -/
theorem stepKeepsParameters : Obligations.StepKeepsParameters := by
  intro s t h
  cases stepEffect_of_step h with
  | entry hb _ => exact (beginsCycle_keeps hb).1
  | unknown hb _ _ => exact (beginsCycle_keeps hb).1
  | instr hb _ _ he =>
    obtain ⟨params, -⟩ := he.outside_eq
    exact params.trans (beginsCycle_keeps hb).1
  | _ => rfl

/-- The instructions that name a cell to store to are the three that store. -/
theorem stores_of_storeAddress {i : Instr} {s : State} {c : Byte} (h : storeAddress i s = some c) :
    (∃ a b, i = .st a b) ∨ (∃ a, i = .push a) ∨ (∃ a, i = .call a) := by
  cases i with
  | st a b => exact .inl ⟨a, b, rfl⟩
  | push a => exact .inr (.inl ⟨a, rfl⟩)
  | call a => exact .inr (.inr ⟨a, rfl⟩)
  | _ => simp [storeAddress] at h

/-- Settles O54: phase 1 and an unknown opcode leave memory, and an instruction changes it only where it stores. -/
theorem onlyStoresAndEntryChangeMemory : Obligations.OnlyStoresAndEntryChangeMemory := by
  intro s t sec h hne
  obtain ⟨hp, -⟩ | ⟨-, -, e⟩ | ⟨i, -, hf, e⟩ := s.cycle_cases sec
  · exact .inl hp
  · rw [e, Host.Outcome.next.injEq] at h
    exact absurd (by simp [← h]) hne
  · obtain same | ⟨c, v, hc, -⟩ := (effect_of_exec (e.symm.trans h)).mem_cases
    · exact absurd (same.trans (s.timerPhase_mem sec)) hne
    · exact .inr ⟨i, (s.timerPhase_fetch sec).symm.trans hf, stores_of_storeAddress hc⟩

/-! The invariant. -/

/-- A machine that has recorded no stop meets the invariant as soon as its memory is canonical. -/
theorem State.Inv.of_cause_none {s : State} (hm : s.mem.wf = true) (hc : s.cause = .none) (he : s.errb = 0x00#8) :
    s.Inv where
  memory := hm
  running _ := hc
  noByte _ := he
  supported := by simp [hc]
  unknown h := by simp [hc] at h
  badIndex h := by simp [hc] at h

/-- Settles O51: reset records no stop. -/
theorem resetMeetsInvariant : Obligations.ResetMeetsInvariant :=
  State.Inv.of_cause_none Memory.wf_reset rfl rfl

/-- The script is no part of what the invariant speaks of. -/
theorem State.Inv.setInputs {s : State} (h : s.Inv) (rest : List HostInput) : (s.setInputs rest).Inv := by
  obtain ⟨memory, running, noByte, supported, unknown, badIndex⟩ := h
  exact ⟨memory, running, noByte, supported, unknown, badIndex⟩

/-- An unknown opcode stops the run precisely: `PC` is on the byte reported (R157). -/
theorem inv_raise_unknownOpcode {u : State} (hm : u.mem.wf = true) (hf : u.fetch = none) :
    (u.raise .unknownOpcode (u.read u.pc)).Inv where
  memory := hm
  running h := by simp at h
  noByte h := by simp at h
  supported := by simp
  unknown _ := ⟨rfl, u.fetch_eq_none_iff.mp hf⟩
  badIndex h := by simp at h

/-- A bad register operand stops the run precisely: `PC` is on the instruction whose operand is reported (R157). -/
theorem inv_raise_addressOutOfRange {u : State} {i : Instr} {v : Byte} (hm : u.mem.wf = true)
    (hf : u.fetch = some i) (hv : firstBadOperand i = some v) : (u.raise .addressOutOfRange v).Inv where
  memory := hm
  running h := by simp at h
  noByte h := by simp at h
  supported := by simp
  unknown h := by simp at h
  badIndex _ := ⟨i, hf, firstBadOperand_eq_some hv⟩

/-- A run that HLT ended reports no byte (R140). -/
theorem inv_hlt {u : State} (hm : u.mem.wf = true) : ((u.stop .hlt 0x00#8).advance 1#8).Inv where
  memory := hm
  running h := by simp at h
  noByte _ := rfl
  supported := by simp
  unknown h := by simp at h
  badIndex h := by simp at h

/-- An instruction fetched by a machine that has recorded no stop leaves a state that meets the invariant. -/
theorem Effect.inv {u t : State} {i : Instr} (he : Effect u i t) (hf : u.fetch = some i) (hm : u.mem.wf = true)
    (hc : u.cause = .none) (hb : u.errb = 0x00#8) : t.Inv := by
  obtain ⟨-, cause, errb⟩ | ⟨-, rfl⟩ | ⟨v, hv, rfl⟩ := he.stop_cases
  · exact .of_cause_none (he.wf_mem hm) (cause.trans hc) (errb.trans hb)
  · exact inv_hlt hm
  · exact inv_raise_addressOutOfRange hm hf hv

/-- Settles O52: a cycle begins in a running state, which has recorded no stop, so each of its three branches leaves
either no stop or a precise one; a host input leaves no stop or the stop that was there. -/
theorem stepKeepsInvariant : Obligations.StepKeepsInvariant := by
  intro s t hs h
  have running {u : State} (hb : s.BeginsCycle u) : u.mem.wf = true ∧ u.cause = .none ∧ u.errb = 0x00#8 := by
    obtain ⟨-, mem, cause, errb⟩ := beginsCycle_keeps hb
    have hc := hs.running hb.1
    exact ⟨mem ▸ hs.memory, cause.trans hc, errb.trans (hs.noByte (.inl hc))⟩
  have idle (hidle : s.idle = true) : s.cause = .none := (s.idle_iff.mp hidle).2
  cases stepEffect_of_step h with
  | entry hb _ =>
    obtain ⟨hm, hc, he⟩ := running hb
    exact .of_cause_none (State.interruptEntry_wf _ hm) hc he
  | unknown hb _ hf => exact inv_raise_unknownOpcode (running hb).1 hf
  | instr hb _ hf heff =>
    obtain ⟨hm, hc, he⟩ := running hb
    exact heff.inv hf hm hc he
  | waits _ _ => exact hs
  | noCycle _ _ => exact hs.setInputs _
  | noRun _ _ => exact hs.setInputs _
  | run _ _ => exact .of_cause_none hs.memory rfl rfl
  | load _ hidle =>
    exact .of_cause_none (Memory.wf_write _ _ _ hs.memory) (idle hidle) (hs.noByte (.inl (idle hidle)))
  | reset _ => exact .of_cause_none Memory.wf_reset rfl rfl

end Sys2Proof.Machine
end

section
/-! SUPPORT. Two states that agree but for time (`State.SameButTime`) and what keeps them so: each named update given
the same value, hence each instruction that does not name register 6, hence a masked step (R159, R163). -/

namespace Sys2Proof.Machine

/-! The updates of the state, each given the same value on both sides. -/

namespace State.SameButTime

variable {s s' : State} (h : s.SameButTime s')
include h

theorem read_eq (d : Byte) : s.read d = s'.read d := congrArg (Memory.read · d.toNat) h.mem

theorem top_eq : s.top = s'.top := by
  rw [State.top, State.top, h.regs 7 (by decide), h.read_eq]

theorem flagE_eq : s.flagE = s'.flagE := congrArg (·.getLsbD 0) h.fl

theorem fetch_eq : s.fetch = s'.fetch := by
  have operands : s.operandAt = s'.operandAt := funext fun k => by
    rw [State.operandAt, State.operandAt, h.pc, h.read_eq]
  rw [State.fetch, State.fetch, h.pc, h.read_eq, operands]

theorem setX (i : RegIndex) {v v' : Byte} (hv : v = v') : (s.setX i v).SameButTime (s'.setX i v') :=
  { h with regs := fun r hr => by simp [hv, h.regs r hr] }

theorem setFl {v v' : Byte} (hv : v = v') : (s.setFl v).SameButTime (s'.setFl v') := { h with fl := hv }

theorem setPc {v v' : Byte} (hv : v = v') : (s.setPc v).SameButTime (s'.setPc v') := { h with pc := hv }

theorem setTb (t t' : Second) : (s.setTb t).SameButTime (s'.setTb t') := { h with }

theorem setInputs (rest rest' : List HostInput) : (s.setInputs rest).SameButTime (s'.setInputs rest') := { h with }

theorem store {a a' v v' : Byte} (ha : a = a') (hv : v = v') : (s.store a v).SameButTime (s'.store a' v') :=
  { h with mem := by simp [h.mem, ha, hv] }

theorem emit (k : OutKind) {v v' : Byte} (hv : v = v') : (s.emit k v).SameButTime (s'.emit k v') :=
  { h with out := by simp [State.emit, h.out, hv] }

theorem stop (c : Cause) (b : Byte) : (s.stop c b).SameButTime (s'.stop c b) :=
  { h with run := rfl, cause := rfl, errb := rfl }

theorem raise (c : Cause) (b : Byte) : (s.raise c b).SameButTime (s'.raise c b) := h.stop c b

theorem advance (n : Byte) : (s.advance n).SameButTime (s'.advance n) := h.setPc (congrArg (add8 · n) h.pc)

theorem push {v v' : Byte} (hv : v = v') : (s.push v).SameButTime (s'.push v') := by
  have moved := h.setX 7 (congrArg (sub8 · 1#8) (h.regs 7 (by decide)))
  exact moved.store (moved.regs 7 (by decide)) hv

theorem drop : s.drop.SameButTime s'.drop := h.setX 7 (congrArg (add8 · 1#8) (h.regs 7 (by decide)))

theorem popX (i : RegIndex) : (s.popX i).SameButTime (s'.popX i) := h.drop.setX i h.top_eq

theorem popFl : s.popFl.SameButTime s'.popFl := h.drop.setFl h.top_eq

theorem popPc : s.popPc.SameButTime s'.popPc := h.drop.setPc h.top_eq

/-- IRET takes nothing from time but the baseline: `x[6]` comes from memory. -/
theorem interruptReturn : s.interruptReturn.SameButTime s'.interruptReturn :=
  ((((((((h.popX 6).popX 5).popX 4).popX 3).popX 2).popX 1).popX 0).popFl.popPc).setTb _ _

theorem jumpIf {taken taken' : Bool} (ht : taken = taken') {i : RegIndex} (hi : i ≠ 6) :
    (jumpIf taken i s).SameButTime (jumpIf taken' i s') := by
  rw [jumpIf_eq_setPc, jumpIf_eq_setPc, ht, h.regs i hi, h.pc]
  exact h.setPc rfl

theorem aluFinish (i : RegIndex) {r r' : AluResult} (hr : r = r') :
    (aluFinish i r s).SameButTime (aluFinish i r' s') := by
  subst hr
  cases r with
  | value v => exact (h.setX i rfl).advance _
  | flags v => exact (h.setFl rfl).advance _
  | unsupported => exact h.raise _ _

/-- Phase 1 writes `x[6]` and the sample, whatever the two seconds are (R159). -/
theorem timerPhase (t t' : Second) : (s.timerPhase t).SameButTime (s'.timerPhase t') where
  regs r hr := by rw [s.timerPhase_x_other t r hr, s'.timerPhase_x_other t' r hr, h.regs r hr]
  fl := by simp [h.fl]
  pc := by simp [h.pc]
  run := by simp [h.run]
  cause := by simp [h.cause]
  errb := by simp [h.errb]
  mem := by simp [h.mem]
  out := by simp [h.out]
  params := by simp [h.params]
  draws := by simp [h.draws]

end State.SameButTime

/-! The instructions. -/

/-- Both answers are next states, and these agree but for time. -/
def AnswersSameButTime (r r' : Answer) : Prop := ∃ t t', r = .next t ∧ r' = .next t' ∧ t.SameButTime t'

/-- An operand byte other than 6 names another register than `x[6]`. -/
theorem ne_six_of_regIdx {a : Byte} {i : RegIndex} (ha : 6#8 ≠ a) (hi : regIdx a = some i) : i ≠ 6 := by
  rintro rfl
  exact ha (BitVec.eq_of_toNat_eq ((regIdx_eq_some a 6).mp hi).symm)

section
variable {s s' : State} (h : s.SameButTime s')
include h

theorem withReg_sameButTime {a : Byte} (h6 : 6#8 ∉ [a]) {body body' : RegIndex → State}
    (hbody : ∀ i, i ≠ 6 → (body i).SameButTime (body' i)) :
    AnswersSameButTime (withReg a s body) (withReg a s' body') := by
  cases hi : regIdx a with
  | none => exact ⟨_, _, by rw [withReg, hi], by rw [withReg, hi], h.raise _ _⟩
  | some i =>
    have hi6 := ne_six_of_regIdx (List.ne_of_not_mem_cons h6) hi
    exact ⟨_, _, by rw [withReg, hi], by rw [withReg, hi], hbody i hi6⟩

theorem withRegs_sameButTime {a b : Byte} (h6 : 6#8 ∉ [a, b]) {body body' : RegIndex → RegIndex → State}
    (hbody : ∀ i j, i ≠ 6 → j ≠ 6 → (body i j).SameButTime (body' i j)) :
    AnswersSameButTime (withRegs a b s body) (withRegs a b s' body') := by
  have hb6 : 6#8 ≠ b := List.ne_of_not_mem_cons (List.not_mem_of_not_mem_cons h6)
  cases hi : regIdx a with
  | none => exact ⟨_, _, by rw [withRegs, hi], by rw [withRegs, hi], h.raise _ _⟩
  | some i =>
    have hi6 := ne_six_of_regIdx (List.ne_of_not_mem_cons h6) hi
    cases hj : regIdx b with
    | none => exact ⟨_, _, by simp only [withRegs, hi, hj], by simp only [withRegs, hi, hj],
        h.raise .addressOutOfRange b⟩
    | some j =>
      exact ⟨_, _, by simp only [withRegs, hi, hj], by simp only [withRegs, hi, hj],
        hbody i j hi6 (ne_six_of_regIdx hb6 hj)⟩

theorem aluInstr_sameButTime (op : AluSelect) {a b : Byte} (h6 : 6#8 ∉ [a, b]) :
    AnswersSameButTime (aluInstr op a b s) (aluInstr op a b s') :=
  withRegs_sameButTime h h6 fun i j hi hj => h.aluFinish i (by rw [h.regs i hi, h.regs j hj])

/-- An instruction that does not name register 6 takes nothing from time but IRET's baseline. -/
theorem exec_sameButTime {i : Instr} (h6 : 6#8 ∉ i.regOperands) : AnswersSameButTime (exec i s) (exec i s') := by
  cases i with
  | ldi a b => exact withReg_sameButTime h h6 fun i _ => (h.setX i rfl).advance _
  | prn a => exact withReg_sameButTime h h6 fun i hi => (h.emit _ (h.regs i hi)).advance _
  | pra a => exact withReg_sameButTime h h6 fun i hi => (h.emit _ (h.regs i hi)).advance _
  | hlt => exact ⟨_, _, exec_hlt s, exec_hlt s', (h.stop _ _).advance _⟩
  | add a b => exact aluInstr_sameButTime h .add h6
  | mul a b => exact aluInstr_sameButTime h .multiply h6
  | cmp a b => exact aluInstr_sameButTime h .compare h6
  | push a =>
    rw [exec_push, exec_push]
    refine withReg_sameButTime h h6 fun i hi => (h.push ?_).advance _
    exact (h.setX 7 (congrArg (sub8 · 1#8) (h.regs 7 (by decide)))).regs i hi
  | pop a =>
    rw [exec_pop, exec_pop]
    exact withReg_sameButTime h h6 fun i _ => (h.setX i h.top_eq).drop.advance _
  | call a =>
    rw [exec_call, exec_call]
    have pushed := h.push (congrArg (add8 · 2#8) h.pc)
    exact withReg_sameButTime h h6 fun i hi => pushed.setPc (pushed.regs i hi)
  | ret => exact ⟨_, _, exec_ret s, exec_ret s', h.popPc⟩
  | jmp a => exact withReg_sameButTime h h6 fun i hi => h.setPc (h.regs i hi)
  | jeq a => exact withReg_sameButTime h h6 fun i hi => h.jumpIf h.flagE_eq hi
  | jne a => exact withReg_sameButTime h h6 fun i hi => h.jumpIf (congrArg (!·) h.flagE_eq) hi
  | st a b =>
    exact withRegs_sameButTime h h6 fun i j hi hj => (h.store (h.regs i hi) (h.regs j hj)).advance _
  | iret => exact ⟨_, _, exec_iret s, exec_iret s', h.interruptReturn⟩

end

/-! The masked step. -/

theorem State.interruptPending_of_mask_zero {s : State} (h : s.x 5 = 0x00#8) : s.interruptPending = false := by
  simp [State.interruptPending, h]


/-- Two masked cycles whose states after phase 1 agree but for time answer states that do so again: neither is
interrupted, both fetch the same instruction, and each leaves the rest of its script. -/
theorem step_sameButTime {s s' u u' : State} (hb : s.BeginsCycle u) (hb' : s'.BeginsCycle u') (h : u.SameButTime u')
    (hmask : u.x 5 = 0x00#8) (h6 : ∀ i, u.fetch = some i → 6#8 ∉ i.regOperands) :
    ∃ t t', step s = .next t ∧ step s' = .next t' ∧ t.SameButTime t' ∧ t.inputs = u.inputs ∧ t'.inputs = u'.inputs := by
  have hp := State.interruptPending_of_mask_zero hmask
  have hp' := State.interruptPending_of_mask_zero ((h.regs 5 (by decide)).symm.trans hmask)
  cases hf : u.fetch with
  | none =>
    refine ⟨_, _, step_of_fetch_none hb hp hf, step_of_fetch_none hb' hp' (h.fetch_eq.symm.trans hf), ?_, rfl, rfl⟩
    rw [h.pc, h.read_eq]
    exact h.raise _ _
  | some i =>
    obtain ⟨t, t', e, e', ht⟩ := exec_sameButTime h (h6 i hf)
    obtain ⟨-, -, inputs, -⟩ := (effect_of_exec e).outside_eq
    obtain ⟨-, -, inputs', -⟩ := (effect_of_exec e').outside_eq
    exact ⟨t, t', (step_of_fetch_some hb hp hf).trans e,
      (step_of_fetch_some hb' hp' (h.fetch_eq.symm.trans hf)).trans e', ht,
      inputs, inputs'⟩

/-- Settles O55: a running machine takes a masked cycle, in which phase 1 differs in `x[6]` and the sample alone; one
that is not running only takes the input. -/
theorem maskedStepIgnoresTime : Obligations.MaskedStepIgnoresTime := by
  intro s s' t t' rest h hi hi' hmask h6
  have taken := h.setInputs rest rest
  cases hr : s.run with
  | false =>
    have idles {w : State} {sec : Second} (hw : w.inputs = .cycle sec :: rest) (hrun : w.run = false) :
        step w = .next (w.setInputs rest) := by
      rw [step_of_inputs hw]; simp [State.hostAct, hrun]
    exact ⟨_, _, idles hi hr, idles hi' (h.run.symm.trans hr), taken, rfl, rfl⟩
  | true =>
    obtain ⟨u, u', e, e', hu, ui, ui'⟩ :=
      step_sameButTime ⟨hr, .inl ⟨t, rest, hi, rfl⟩⟩ ⟨h.run.symm.trans hr, .inl ⟨t', rest, hi', rfl⟩⟩
        (taken.timerPhase t t') ((State.timerPhase_x_other _ t 5 (by decide)).trans hmask)
        (by rwa [State.timerPhase_fetch])
    exact ⟨u, u', e, e', hu, ui.trans (by simp), ui'.trans (by simp)⟩

end Sys2Proof.Machine
end
